-- ==== Sys2Proof/Word.lean ====
section
/-! DEFINITION. The plain value types of the block: bytes, 32-bit register words, frames and frame buffers
(00_scope.md R11, R12; 20_memory.md R62). -/

namespace Sys2Proof

/-- A byte: a natural less than 256 (R12). -/
abbrev Byte := BitVec 8

/-- A 32-bit register or command word (R62, R80). -/
abbrev Word32 := BitVec 32

/-- A Frame: a finite list of bytes, byte 0 the most significant (R12, R60). -/
abbrev Frame := List Byte

/-- A frame buffer (10_state.md R39 to R41): its `NF_MAX` bytes in index order. The length is part of the invariant
(`State.WidthInv`), since `NF_MAX` is a parameter. -/
abbrev Buffer := List Byte

end Sys2Proof
end

