-- ==== Sys2Proof/Syntax.lean ====
section
/-! DEFINITION. The seven commands, one constructor per row of the opcode table (30_encoding.md R83). -/

namespace Sys2Proof

/-- A command. `c` is the CRC flag, `v` the verbose flag, `data` the data byte (R80, R82). Every value of these
fields is legal, so every term is a well-formed instruction: what can be ill-formed is a command word. -/
inductive Instr where
  /-- CONFIGURE (43_system_and_host.md R180). -/
  | configure
  /-- ENCODE (41_word_codec.md R135). -/
  | encode (c : Bool)
  /-- WRITE (42_transactions.md R160). -/
  | write (c v : Bool)
  /-- READ (42_transactions.md R161). -/
  | read (c v : Bool)
  /-- GENCRC (40_crc_engine.md R110). -/
  | genCrc
  /-- CRCSTART (40_crc_engine.md R108). -/
  | crcStart
  /-- CRCBYTE (40_crc_engine.md R109). -/
  | crcByte (data : Byte)
  deriving DecidableEq, Repr

end Sys2Proof
end

