-- ==== Sys2Proof/WellFormed.lean ====
section
/-! DEFINITION. Which 32-bit words are well-formed commands, read field by field from 30_encoding.md R80, R82 and R84,
independently of the mask and match table that the decoder uses (R83). -/

namespace Sys2Proof

/-- Bits `[7:6]` and `[31:16]` are 0 (R80). -/
def reservedBitsZero (w : Word32) : Bool :=
  w.extractLsb' 6 2 == 0 && w.extractLsb' 16 16 == 0

/-- `OP` is one of the seven operation codes 1 to 7 (R83, R84). -/
def operationKnown (w : Word32) : Bool :=
  1 ≤ (w.extractLsb' 0 4).toNat && (w.extractLsb' 0 4).toNat ≤ 7

/-- `C` is set only for ENCODE, WRITE and READ (R82). -/
def flagCAllowed (w : Word32) : Bool :=
  !w.getLsbD 4 || (2 ≤ (w.extractLsb' 0 4).toNat && (w.extractLsb' 0 4).toNat ≤ 4)

/-- `V` is set only for WRITE and READ (R82). -/
def flagVAllowed (w : Word32) : Bool :=
  !w.getLsbD 5 || (3 ≤ (w.extractLsb' 0 4).toNat && (w.extractLsb' 0 4).toNat ≤ 4)

/-- `DATA` is non-zero only for CRCBYTE (R82). -/
def dataAllowed (w : Word32) : Bool :=
  w.extractLsb' 8 8 == 0 || (w.extractLsb' 0 4).toNat == 7

/-- A well-formed command word: the ones R84 does not call illegal. -/
def wordWellFormed (w : Word32) : Bool :=
  reservedBitsZero w && operationKnown w && flagCAllowed w && flagVAllowed w && dataAllowed w

end Sys2Proof
end

