-- ==== Sys2Proof/Decode.lean ====
section
/-! DEFINITION. The command decoder by mask and match (30_encoding.md R83), its rejections by name (R84), and the
encoder (R80, R83). -/

namespace Sys2Proof

/-- Why a command word matches no row of the opcode map (R84). The block raises IllegalCommand for each. -/
inductive IllegalWord where
  /-- `OP` is 0 or 8 to 15. -/
  | operation
  /-- A bit of `[7:6]` or `[31:16]` is set. -/
  | reservedBit
  /-- `C`, `V` or `DATA` is set for an operation that must have it 0 (R82). -/
  | field
  deriving DecidableEq, Repr

/-- Field `C`, bit 4 (R80). -/
def flagC (w : Word32) : Bool := w.getLsbD 4

/-- Field `V`, bit 5 (R80). -/
def flagV (w : Word32) : Bool := w.getLsbD 5

/-- Field `DATA`, bits `[15:8]` (R80). -/
def dataField (w : Word32) : Byte := w.extractLsb' 8 8

/-- The name of the rejection of a word that matches no row (R84). -/
def illegalCause (w : Word32) : IllegalWord :=
  if !operationKnown w then .operation
  else if !reservedBitsZero w then .reservedBit
  else .field

/-- The opcode map: a word selects the row for which `w & mask = match` (R83). -/
def decode (w : Word32) : Except IllegalWord Instr :=
  if w &&& 0xFFFFFFFF#32 = 0x00000001#32 then .ok .configure
  else if w &&& 0xFFFFFFEF#32 = 0x00000002#32 then .ok (.encode (flagC w))
  else if w &&& 0xFFFFFFCF#32 = 0x00000003#32 then .ok (.write (flagC w) (flagV w))
  else if w &&& 0xFFFFFFCF#32 = 0x00000004#32 then .ok (.read (flagC w) (flagV w))
  else if w &&& 0xFFFFFFFF#32 = 0x00000005#32 then .ok .genCrc
  else if w &&& 0xFFFFFFFF#32 = 0x00000006#32 then .ok .crcStart
  else if w &&& 0xFFFF00FF#32 = 0x00000007#32 then .ok (.crcByte (dataField w))
  else .error (illegalCause w)

/-- The `match` column of R83. -/
def rowMatch : Instr → Word32
  | .configure => 0x00000001#32
  | .encode _ => 0x00000002#32
  | .write _ _ => 0x00000003#32
  | .read _ _ => 0x00000004#32
  | .genCrc => 0x00000005#32
  | .crcStart => 0x00000006#32
  | .crcByte _ => 0x00000007#32

/-- The `mask` column of R83. -/
def rowMask : Instr → Word32
  | .configure => 0xFFFFFFFF#32
  | .encode _ => 0xFFFFFFEF#32
  | .write _ _ => 0xFFFFFFCF#32
  | .read _ _ => 0xFFFFFFCF#32
  | .genCrc => 0xFFFFFFFF#32
  | .crcStart => 0xFFFFFFFF#32
  | .crcByte _ => 0xFFFF00FF#32

/-- Fields `C` and `V` at their places, bits 4 and 5 (R80). -/
def flagBits (c v : Bool) : Word32 :=
  (if c then 0x10#32 else 0#32) ||| (if v then 0x20#32 else 0#32)

/-- The command word of an instruction (R83; the command rules' `Encoding` lines). -/
def encode : Instr → Word32
  | .configure => 0x00000001#32
  | .encode c => 0x00000002#32 ||| flagBits c false
  | .write c v => 0x00000003#32 ||| flagBits c v
  | .read c v => 0x00000004#32 ||| flagBits c v
  | .genCrc => 0x00000005#32
  | .crcStart => 0x00000006#32
  | .crcByte d => 0x00000007#32 ||| (d.setWidth 32 <<< 8)

/-- The command the decoder reads from an instruction whose bits are `w`, `nbits` of them given by the table and all
above 0. A command is one 32-bit word (R80, R86). -/
def decodeTableWord (nbits w : Nat) : Option Instr :=
  (decode (BitVec.ofNat 32 (w % 2 ^ nbits))).toOption

end Sys2Proof
end

