-- ==== Sys2Proof/Machine/Crc.lean ====
section
/-! DEFINITION. The functions of the CRC Engine on naturals of any size (40_crc_engine.md R100 to R106). The width `W`
and the polynomial `P` come first, then the register. -/

namespace Sys2Proof.Machine

/-- The bit step `crc_bit(reg, b; W, P)` (R100). -/
def crcBit (W P reg b : Nat) : Nat :=
  let top := reg >>> (W - 1)
  let sh := (reg <<< 1) % 2 ^ W
  if top ^^^ b = 1 then sh ^^^ P else sh

/-- The byte step `crc_byte(reg, d; W, P)`: bit 7 first, bit 0 last (R101; 20_memory.md R61). -/
def crcByte (W P reg : Nat) (d : Byte) : Nat :=
  [7, 6, 5, 4, 3, 2, 1, 0].foldl (fun r k => crcBit W P r (d.getLsbD k).toNat) reg

/-- `compute_crc(data, W, P, I)`: the bytes in index order from the initial value (R102). -/
def computeCrc (data : Frame) (W P I : Nat) : Nat :=
  data.foldl (crcByte W P) I

/-- An entry of the table: the register after byte `i` is taken from a zero register (R105). -/
def tableEntry (W P i : Nat) : Nat :=
  crcByte W P 0 (BitVec.ofNat 8 i)

/-- The table step `crc_byte_T(reg, d)` over a table `T` (R106). -/
def crcByteT (T : Nat → Nat) (W reg : Nat) (d : Byte) : Nat :=
  if 8 ≤ W then ((reg <<< 8) % 2 ^ W) ^^^ T ((reg >>> (W - 8)) ^^^ d.toNat)
  else T (((reg <<< (8 - W)) % 256) ^^^ d.toNat)

/-- `CTAB` as CONFIGURE builds it for the width `W` and the polynomial `P` (R105). -/
def buildTable (W P : Nat) : Vector Nat 256 :=
  Vector.ofFn fun i => tableEntry W P i.val

end Sys2Proof.Machine
end

