-- ==== Sys2Proof/Machine/Codec.lean ====
section
/-! DEFINITION. The functions of the Word Codec and of the Transaction Orchestrator on naturals and frames of any size
(41_word_codec.md R130 to R133; 42_transactions.md R153, R154). -/

namespace Sys2Proof.Machine

/-- `BE(v, n)`: byte `i` is `(v >> (8 * (n - 1 - i))) mod 256` (R130). -/
def be (v : Nat) : Nat → Frame
  | 0 => []
  | n + 1 => BitVec.ofNat 8 (v >>> (8 * n)) :: be v n

/-- `INT(f)`: the sum of `f[i] * 256^(n - 1 - i)` (R131). -/
def intOf : Frame → Nat
  | [] => 0
  | b :: f => b.toNat * 256 ^ f.length + intOf f

/-- `ceil(W / 8)`, the document's `crc_byte_count` (00_scope.md R10). -/
def crcByteCount (W : Nat) : Nat := (W + 7) / 8

/-- `encode` over any CRC function; `none` is OverflowError (R133). -/
def encodeBy (crc : Frame → Nat) (word bc : Nat) (c : Bool) (W : Nat) : Option Frame :=
  if 2 ^ (8 * bc) ≤ word then none
  else
    let f := be word bc
    some (if c then f ++ be (crc f) (crcByteCount W) else f)

/-- `encode(word, bc, c, W, P, I)` of the document (R133). -/
def encodeFrame (word bc : Nat) (c : Bool) (W P I : Nat) : Option Frame :=
  encodeBy (fun f => computeCrc f W P I) word bc c W

/-- `reassemble(tx, rx) = INT(rx) | INT(tx)` (R153). -/
def reassemble (tx rx : Frame) : Nat := intOf rx ||| intOf tx

/-- The four results of `crc_check` (R154). -/
structure CrcCheck where
  crcrx : Nat
  payload : Nat
  recomputed : Nat
  mismatch : Bool
  deriving DecidableEq, Repr

/-- `crc_check` over any CRC function: mask and shift are both taken from the unchanged full word (R154, R157). -/
def crcCheckBy (crc : Frame → Nat) (full bc W : Nat) : CrcCheck :=
  let crcrx := full % 2 ^ W
  let payload := full >>> (8 * crcByteCount W)
  let recomputed := crc (be payload bc)
  { crcrx := crcrx, payload := payload, recomputed := recomputed, mismatch := crcrx != recomputed }

/-- `crc_check(full, bc, W, P, I)` of the document (R154). -/
def crcCheck (full bc W P I : Nat) : CrcCheck :=
  crcCheckBy (fun f => computeCrc f W P I) full bc W

end Sys2Proof.Machine
end

