-- ==== Sys2Proof/Config.lean ====
section
/-! DEFINITION. What an implementation fixes (00_scope.md R6 to R10; 93_implementation_defined.md U11) and the values
the spec leaves free (93_implementation_defined.md U2, U3, U6, U9). -/

namespace Sys2Proof

/-- The sizes a block is built with (R6, R7): arguments of the model, which every state carries. Assumption 1. -/
structure Sizes where
  /-- `NB_MAX`, the largest word length in bytes (R6). -/
  nbMax : Nat
  /-- `CW_MAX`, the largest CRC width in bits (R7). -/
  cwMax : Nat
  deriving DecidableEq, Repr

/-- `CB_MAX = ceil(CW_MAX / 8)` (R7). -/
def Sizes.cbMax (z : Sizes) : Nat := (z.cwMax + 7) / 8

/-- `NF_MAX = NB_MAX + CB_MAX`, the longest frame (R7). -/
def Sizes.nfMax (z : Sizes) : Nat := z.nbMax + z.cbMax

/-- The sizes a block may be built with: `NB_MAX >= 1` and `CW_MAX >= 32` (R7; 93_implementation_defined.md U11). -/
abbrev Sizes.legal (z : Sizes) : Prop := 1 ≤ z.nbMax ∧ 32 ≤ z.cwMax

/-- The sizes of the reference instance, `NB_MAX = 8` and `CW_MAX = 64` (R6, R7). -/
def Config.reference : Sizes := { nbMax := 8, cwMax := 64 }

/-- `BPU`, the transfer unit in bits, hard-wired to 8 (R9; 10_state.md R26). Assumption 14. -/
def Config.bpu : BitVec 8 := 8

/-- `IMPL_TABLE` of the instance that `State.reset` describes (R8). Other states may lack the table: the parameter is
carried by the presence of `CTAB` in the state. Assumption 2. -/
def Config.implTable : Bool := true

/-- A free byte: what the bus primitive answers beyond the scripted bytes (U6), and what a frame buffer holds at and
beyond the frame's length (U3). It has no value that a proof could use. Assumptions 4 and 5. -/
opaque Config.freeByte : Nat → Byte

/-- A free register word: what a read returns while a command runs (U2). Assumption 6. -/
opaque Config.freeWord : Nat → Word32

/-- How many bytes of an exchange were moved before a reset cut it: nothing constrains it (U9). Assumption 11. -/
opaque Config.freeCount : Nat → Nat

/-- One less than the host's exit code for a failed command. Assumption 18. -/
opaque Config.exitFailLessOne : Nat

/-- `EXIT_FAIL`, of which the spec says only that it is not 0 (43_system_and_host.md R190; U11). -/
def Config.exitFail : Nat := Config.exitFailLessOne + 1

end Sys2Proof
end

