-- ==== Sys2Proof/Machine/State.lean ====
section
/-! DEFINITION. The state of the block (10_state.md R20 to R47), the plain data that stands for the host, the reset pin
and the bus around it, the state after reset (R49), and the reasons a step can stop. -/

namespace Sys2Proof.Machine

/-- `LIFECYCLE` (10_state.md R30). Code 3 never occurs and has no name. -/
inductive Lifecycle where
  | unconfigured
  | ready
  | failed
  deriving DecidableEq, Repr

/-- `PHASE`, the sequencer's position (10_state.md R31). Codes 5 to 7 never occur and have no name. -/
inductive Phase where
  | idle
  | encode
  | exchange
  | reassemble
  | check
  deriving DecidableEq, Repr

/-- `ERR`, the error that ended the last accepted command (10_state.md R34; 60_exceptions.md R201). Code 1 is kept
for the host's FormatError, which the block never writes; codes 6 to 15 never occur. -/
inductive ErrKind where
  | none
  | overflowError
  | configurationError
  | illegalCommand
  | badState
  deriving DecidableEq, Repr

/-- One entry of the agenda: which agent moves, and how (00_scope.md R14). Assumption 7. -/
inductive Turn where
  /-- The host reads `bytes` bytes at offset `addr`: `MemRead` (20_memory.md R63, R66). -/
  | hostRead (addr bytes : Nat)
  /-- The host writes `v` as `bytes` bytes at offset `addr`: `MemWrite` (20_memory.md R64, R66). -/
  | hostWrite (addr bytes : Nat) (v : Word32)
  /-- The host waits: it reads `STATUS` until `BUSY = 0` (43_system_and_host.md section 2). -/
  | hostWait
  /-- The sequencer takes the step of the current phase (10_state.md R31). -/
  | sequencer
  /-- The reset input is asserted (`true`) or released (`false`) (70_reset_and_hazards.md R230). -/
  | rst (level : Bool)
  deriving DecidableEq, Repr

/-- What the bus primitive is given by one exchange: the outbound bytes (20_memory.md R70) and the sideband fields
(43_system_and_host.md R194). -/
structure Exchange where
  busidx : BitVec 8
  devidx : BitVec 8
  ckmode : BitVec 2
  ckrate : BitVec 32
  out : Frame
  deriving DecidableEq, Repr

/-- The block: exactly the state of 10_state.md R20. `BPU` is hard-wired (`Config.bpu`) and `STATUS` is a view.
A register whose width is a parameter (R29, R38 to R47) is a natural, a `w`-bit value being a natural less than `2^w`
(00_scope.md R11); `State.WidthInv` says that it is. -/
structure Block where
  /-- R21 -/
  busidx : BitVec 8
  /-- R22 -/
  devidx : BitVec 8
  /-- R23 -/
  ckmode : BitVec 2
  /-- R24 -/
  nobus : Bool
  /-- R25 -/
  ckrate : BitVec 32
  /-- R27 -/
  wlen : BitVec 16
  /-- R28 -/
  cw : BitVec 8
  /-- R29 -/
  cpoly : Nat
  /-- R29 -/
  cinit : Nat
  /-- R30 -/
  lifecycle : Lifecycle
  /-- R31 -/
  phase : Phase
  /-- R32 -/
  cmd : Word32
  /-- R34 -/
  err : ErrKind
  /-- R35 -/
  done : Bool
  /-- R36 -/
  crcmm : Bool
  /-- R37 -/
  mhw : Bool
  /-- R38 -/
  word : Nat
  /-- R39 -/
  txf : Buffer
  /-- R39 -/
  txlen : Nat
  /-- R40 -/
  rxf : Buffer
  /-- R40 -/
  rxlen : Nat
  /-- R41 -/
  standin : Buffer
  /-- R42 -/
  full : Nat
  /-- R43 -/
  payload : Nat
  /-- R44 -/
  crcrx : Nat
  /-- R45 -/
  crccalc : Nat
  /-- R46 -/
  creg : Nat
  /-- R47: `none` in a block built with `IMPL_TABLE` false, which has no such table. -/
  ctab : Option (Vector Nat 256)
  deriving DecidableEq, Repr

/-- The machine: the block and the world around it. The fields here are the model's own (10_state.md R48). -/
structure State extends Block where
  /-- The sizes the block is built with (00_scope.md R6, R7), which no step changes. Assumption 1. -/
  sizes : Sizes
  /-- The level of the reset input (70_reset_and_hazards.md R230). -/
  rst : Bool
  /-- Who moves next, in order. Assumption 7. -/
  agenda : List Turn
  /-- What the last host read returned. Assumption 15. -/
  readData : Word32
  /-- The bytes the bus agent answers next; free bytes follow them. Assumption 4. -/
  busIn : List Byte
  /-- What the bus primitive was given, oldest first. Assumption 16. -/
  busLog : List Exchange
  /-- How many free values have been drawn. Assumption 4. -/
  draws : Nat
  deriving DecidableEq, Repr

/-- The block after reset (10_state.md R49), built with these sizes, and with the table or without it. The registers that R49 calls
unspecified are 0: assumption 3. -/
def Block.reset (z : Sizes) (table : Bool) : Block where
  busidx := 0
  devidx := 0
  ckmode := 0
  nobus := false
  ckrate := 0
  wlen := 0
  cw := 0
  cpoly := 0
  cinit := 0
  lifecycle := .unconfigured
  phase := .idle
  cmd := 0
  err := .none
  done := false
  crcmm := false
  mhw := false
  word := 0
  txf := List.replicate z.nfMax 0
  txlen := 0
  rxf := List.replicate z.nfMax 0
  rxlen := 0
  standin := List.replicate z.nfMax 0
  full := 0
  payload := 0
  crcrx := 0
  crccalc := 0
  creg := 0
  ctab := if table then some (Vector.replicate 256 0) else none

/-- The machine right after reset, for a block of any sizes and either engine: the block of R49, the reset input
released, nothing on the agenda, no bus answer scripted, nothing exchanged (assumption 23). -/
def State.resetOf (z : Sizes) (table : Bool) : State where
  toBlock := Block.reset z table
  sizes := z
  rst := false
  agenda := []
  readData := 0
  busIn := []
  busLog := []
  draws := 0

/-- The machine right after reset: the reference instance, with the table (assumptions 1, 2). -/
def State.reset : State := State.resetOf Config.reference Config.implTable

/-- Why the machine stops with a fault. -/
inductive Fault where
  /-- A phase step was due that 10_state.md R31 does not give the command in `CMD`, or `CMD` holds no command at all.
  Raised by the meanings and by the sequencer, only in states that no run reaches. Safe. Assumption 9. -/
  | phaseNotOfCommand
  deriving DecidableEq, Repr

/-- Why a step has no meaning. -/
inductive Refusal where
  /-- Raised by an arm of `exec` for an instruction without a meaning. Safe. No arm raises it. -/
  | notModelled (mnemonic : String)
  /-- Raised by a host access that is not an aligned 32-bit access inside the register space, to which
  20_memory.md R66 gives no meaning (93_implementation_defined.md U4: refuse). Safe. Assumption 10. -/
  | undefinedAccess
  deriving DecidableEq, Repr

/-- What a step answers. -/
abbrev Result := Host.Outcome State Fault Refusal

end Sys2Proof.Machine
end

