-- ==== Sys2Proof/Machine/Operands.lean ====
section
/-! DEFINITION. The operands of a command besides `DATA`: the word, the lengths derived from the configuration
(00_scope.md R10; 30_encoding.md R87), the engine of the block, and the frames in the buffers. -/

namespace Sys2Proof.Machine

/-- `BC = WLEN / 8` (R10). -/
def State.bc (s : State) : Nat := s.wlen.toNat / 8

/-- `CBC = ceil(CW / 8)` (R10). -/
def State.cbc (s : State) : Nat := crcByteCount s.cw.toNat

/-- `NF(c)`, the length of a frame with CRC flag `c` (R10). -/
def State.nf (s : State) (c : Bool) : Nat := s.bc + if c then s.cbc else 0

/-- The condition under which the ENCODE phase and GENCRC do not raise OverflowError (60_exceptions.md R202). -/
def State.wordFits (s : State) : Bool := s.word < 2 ^ (8 * s.bc)

/-- The byte step of the block's engine: by `CTAB` in a block that has it, bit-serial otherwise (40_crc_engine.md
R101, R106; 00_scope.md R8). -/
def State.engineByte (s : State) (reg : Nat) (d : Byte) : Nat :=
  match s.ctab with
  | none => crcByte s.cw.toNat s.cpoly reg d
  | some t => crcByteT (fun i => t[i]?.getD 0) s.cw.toNat reg d

/-- The engine run over a frame from `CINIT` (40_crc_engine.md R107). -/
def State.engineRun (s : State) (f : Frame) : Nat :=
  f.foldl s.engineByte s.cinit

/-- The first `n` bytes of a buffer. -/
def bufferPrefix (b : Buffer) (n : Nat) : Frame := b.take n

/-- A buffer of `size` bytes that holds the frame `f`; its bytes beyond `f` are the free bytes from draw `d` on, since they become
unspecified (42_transactions.md R150, R151; 93_implementation_defined.md U3). Assumption 5. -/
def loadBuffer (f : Frame) (d size : Nat) : Buffer :=
  (List.range size).map fun i => (f[i]?).getD (Config.freeByte (d + i))

/-- The outbound frame `TXF[0 .. TXLEN-1]` (10_state.md R39). -/
def State.txFrame (s : State) : Frame := bufferPrefix s.txf s.txlen

/-- The inbound frame `RXF[0 .. RXLEN-1]` (10_state.md R40). -/
def State.rxFrame (s : State) : Frame := bufferPrefix s.rxf s.rxlen

end Sys2Proof.Machine
end

