-- ==== Sys2Proof/Machine/Flags.lean ====
section
/-! DEFINITION. The codes of the control fields and the register view `STATUS` (10_state.md R30, R31, R33 to R37;
60_exceptions.md R201). -/

namespace Sys2Proof.Machine

/-- The code of `LIFECYCLE` (10_state.md R30). -/
def Lifecycle.code : Lifecycle → BitVec 2
  | .unconfigured => 0
  | .ready => 1
  | .failed => 2

/-- The code of `PHASE` (10_state.md R31). -/
def Phase.code : Phase → BitVec 3
  | .idle => 0
  | .encode => 1
  | .exchange => 2
  | .reassemble => 3
  | .check => 4

/-- The code of `ERR` (60_exceptions.md R201). -/
def ErrKind.code : ErrKind → BitVec 4
  | .none => 0
  | .overflowError => 2
  | .configurationError => 3
  | .illegalCommand => 4
  | .badState => 5

/-- `BUSY = 1` if `PHASE != IDLE` (10_state.md R33). -/
def State.busy (s : State) : Bool := s.phase != .idle

/-- One bit of a register view, at bit `k`. -/
def bitAt (b : Bool) (k : Nat) : Word32 := (BitVec.ofBool b).setWidth 32 <<< k

/-- The register view `STATUS` (10_state.md R33). -/
def State.status (s : State) : Word32 :=
  bitAt s.busy 0 ||| bitAt s.done 1 ||| (s.lifecycle.code.setWidth 32 <<< 2) |||
    (s.phase.code.setWidth 32 <<< 4) ||| (s.err.code.setWidth 32 <<< 8) |||
    bitAt s.crcmm 12 ||| bitAt s.mhw 13

end Sys2Proof.Machine
end

