-- ==== Sys2Proof/Machine/Ops.lean ====
section
/-! DEFINITION. The shared operations of the commands: acceptance (30_encoding.md R81), the lifecycle check (R85),
taking an error (60_exceptions.md R210), completing, the answer of the bus (20_memory.md R70, R71) and reset
(70_reset_and_hazards.md R230). There is no return command: acceptance of the next command is what clears the error
(60_exceptions.md R211). -/

namespace Sys2Proof.Machine

/-- Step 1 of acceptance: `CMD <- w` and the status of the previous command is cleared (R81; 60_exceptions.md R211). -/
def accept (w : Word32) (s : State) : State :=
  { s with cmd := w, err := .none, done := false, crcmm := false, mhw := false }

/-- `raise E`: the command ends with `ERR`, the block is idle, nothing else is written but `LIFECYCLE` for
ConfigurationError (R210). -/
def raise (e : ErrKind) (s : State) : State :=
  { s with
    err := e
    done := false
    phase := .idle
    lifecycle := if e = .configurationError then .failed else s.lifecycle }

/-- The last step of a command that raised nothing: `DONE <- 1; PHASE <- IDLE` (10_state.md R35). -/
def finish (s : State) : State :=
  { s with done := true, phase := .idle }

/-- Which lifecycle state allows an operation (R85). -/
def allowedIn (i : Instr) (l : Lifecycle) : Bool :=
  match i with
  | .configure => l == .unconfigured
  | .encode _ => l == .ready
  | .write _ _ => l == .ready
  | .read _ _ => l == .ready
  | .genCrc => l == .ready
  | .crcStart => l == .ready
  | .crcByte _ => l == .ready

/-- Steps 3 and 4 of acceptance: BadState where the lifecycle does not allow the operation, else its own step
(R81, R85; 60_exceptions.md R208). -/
def whenAllowed (i : Instr) (s : State) (run : State → State) : State :=
  if allowedIn i s.lifecycle then run s else raise .badState s

/-- Acceptance of a command that runs through phases: `PHASE <- ENCODE` (R81 step 4). -/
def enterEncode (s : State) : State :=
  { s with phase := .encode }

/-- `CREG <- r`: every use of the engine by a command writes it (40_crc_engine.md R107). -/
def storeCreg (r : Nat) (s : State) : State :=
  { s with creg := r }

/-- The answer of the bus primitive to an exchange of `n` bytes: the scripted bytes, then free bytes; always `n` of
them (20_memory.md R70). Assumption 4. -/
def busAnswer (s : State) (n : Nat) : Frame :=
  (List.range n).map fun i => (s.busIn[i]?).getD (Config.freeByte (s.draws + i))

/-- The inbound frame of the EXCHANGE phase: the bus answer, or the stand-in bytes when no bus is present
(20_memory.md R70, R71). -/
def inboundFrame (s : State) (n : Nat) : Frame :=
  if s.nobus then bufferPrefix s.standin n else busAnswer s n

/-- What one `BusExchange` hands to the bus primitive (20_memory.md R70; 43_system_and_host.md R194). -/
def exchangeOf (s : State) : Exchange where
  busidx := s.busidx
  devidx := s.devidx
  ckmode := s.ckmode
  ckrate := s.ckrate
  out := s.txFrame

/-- A reset asserted while an exchange is due or under way: none, part or all of the frame may have reached the bus, and
the log says so by the exchange cut to a free number of bytes, which may be 0 (70_reset_and_hazards.md R231;
93_implementation_defined.md U9). Assumption 11. -/
def cutExchange (s : State) : State :=
  if s.phase = .exchange ∧ s.nobus = false then
    { s with
      busIn := s.busIn.drop (Config.freeCount s.draws)
      busLog := s.busLog ++ [{ exchangeOf s with out := s.txFrame.take (Config.freeCount s.draws) }]
      draws := s.draws + 1 }
  else s

/-- Reset of the block; the world around it stays (70_reset_and_hazards.md R230). Assumption 11. -/
def resetBlock (s : State) : State :=
  { s with toBlock := Block.reset s.sizes s.ctab.isSome }

end Sys2Proof.Machine
end

