-- ==== Sys2Proof/Machine/Phases.lean ====
section
/-! DEFINITION. The phase steps of the sequencer (42_transactions.md R150, R151, R155, R156; 40_crc_engine.md R110).
`go` is what follows a phase that raised nothing. -/

namespace Sys2Proof.Machine

/-- The stores of the ENCODE phase once the frame `f` is built (R150). -/
def storeOutbound (c : Bool) (f : Frame) (s : State) : State :=
  { s with
    txf := loadBuffer f s.draws s.sizes.nfMax
    txlen := f.length
    creg := if c then s.engineRun (be s.word s.bc) else s.creg
    draws := s.draws + s.sizes.nfMax }

/-- The ENCODE phase of ENCODE, WRITE and READ: `encode` with its result stored, or OverflowError with nothing
stored (R150). -/
def encodePhase (c : Bool) (go : State → State) (s : State) : State :=
  match encodeBy s.engineRun s.word s.bc c s.cw.toNat with
  | none => raise .overflowError s
  | some f => go (storeOutbound c f s)

/-- The stores of the EXCHANGE phase: the inbound frame, `MHW` when no bus is present, and otherwise the bus agent's
bytes taken and the exchange logged (R151). -/
def storeInbound (s : State) : State :=
  { s with
    rxf := loadBuffer (inboundFrame s s.txlen) (s.draws + s.txlen) s.sizes.nfMax
    rxlen := s.txlen
    mhw := if s.nobus then true else s.mhw
    busIn := if s.nobus then s.busIn else s.busIn.drop s.txlen
    busLog := if s.nobus then s.busLog else s.busLog ++ [exchangeOf s]
    draws := s.draws + s.txlen + s.sizes.nfMax }

/-- The EXCHANGE phase: one exchange with the bus, or the stand-in bytes (R151). -/
def exchangePhase (go : State → State) (s : State) : State := go (storeInbound s)

/-- The full word of the REASSEMBLE phase: `n = TXLEN` bytes of both buffers (R155). -/
def State.fullWord (s : State) : Nat :=
  reassemble (bufferPrefix s.txf s.txlen) (bufferPrefix s.rxf s.txlen)

/-- The stores of the REASSEMBLE phase with `C = 1`, which goes on to CHECK (R155). -/
def storeFull (s : State) : State :=
  { s with full := s.fullWord, phase := .check }

/-- The stores of the REASSEMBLE phase with `C = 0`: the whole full word is the payload (R155). -/
def storePlainRead (s : State) : State :=
  { s with
    full := s.fullWord
    payload := s.fullWord
    crcrx := 0
    crccalc := 0 }

/-- The REASSEMBLE phase (R155). -/
def reassemblePhase (c : Bool) (s : State) : State :=
  if c then storeFull s else finish (storePlainRead s)

/-- The stores of the CHECK phase (R156). -/
def storeCheck (r : CrcCheck) (s : State) : State :=
  { s with
    crcrx := r.crcrx
    payload := r.payload
    crccalc := r.recomputed
    creg := r.recomputed
    crcmm := r.mismatch }

/-- The CHECK phase: a mismatch sets `CRCMM` and raises nothing (R156, R163; 60_exceptions.md R205). -/
def checkPhase (s : State) : State :=
  finish (storeCheck (crcCheckBy s.engineRun s.full s.bc s.cw.toNat) s)

/-- The step of GENCRC in phase ENCODE (40_crc_engine.md R110). -/
def genCrcPhase (s : State) : State :=
  if s.wordFits then
    finish (storeCreg (s.engineRun (be s.word s.bc)) s)
  else raise .overflowError s

/-- `PHASE <- EXCHANGE`. -/
def toExchange (s : State) : State := { s with phase := .exchange }

/-- `PHASE <- REASSEMBLE`. -/
def toReassemble (s : State) : State := { s with phase := .reassemble }

end Sys2Proof.Machine
end

