-- ==== Sys2Proof/Machine/CodecCommands.lean ====
section
/-! DEFINITION. The command ENCODE (41_word_codec.md R135). -/

namespace Sys2Proof.Machine

/-- ENCODE (R135): acceptance, then the ENCODE phase, which ends it. -/
def execEncode (c : Bool) (s : State) : Result :=
  match s.phase with
  | .idle => .next (whenAllowed (.encode c) s enterEncode)
  | .encode => .next (encodePhase c finish s)
  | .exchange | .reassemble | .check => .fault .phaseNotOfCommand

end Sys2Proof.Machine
end

