-- ==== Sys2Proof/Machine/CrcCommands.lean ====
section
/-! DEFINITION. The commands that use only the CRC Engine: CRCSTART, CRCBYTE, GENCRC (40_crc_engine.md R108 to R110). -/

namespace Sys2Proof.Machine

/-- The work of CRCSTART: `CREG <- CINIT` (R108). -/
def startCrc (s : State) : State := finish (storeCreg s.cinit s)

/-- CRCSTART (R108): one step at acceptance. -/
def execCrcStart (s : State) : Result :=
  match s.phase with
  | .idle => .next (whenAllowed .crcStart s startCrc)
  | .encode | .exchange | .reassemble | .check => .fault .phaseNotOfCommand

/-- The work of CRCBYTE: one byte from the current `CREG` (R109). -/
def takeByte (d : Byte) (s : State) : State := finish (storeCreg (s.engineByte s.creg d) s)

/-- CRCBYTE (R109): one step at acceptance. -/
def execCrcByte (d : Byte) (s : State) : Result :=
  match s.phase with
  | .idle => .next (whenAllowed (.crcByte d) s (takeByte d))
  | .encode | .exchange | .reassemble | .check => .fault .phaseNotOfCommand

/-- GENCRC (R110): acceptance, then its own step in phase ENCODE. -/
def execGenCrc (s : State) : Result :=
  match s.phase with
  | .idle => .next (whenAllowed .genCrc s enterEncode)
  | .encode => .next (genCrcPhase s)
  | .exchange | .reassemble | .check => .fault .phaseNotOfCommand

end Sys2Proof.Machine
end

