-- ==== Sys2Proof/Machine/System.lean ====
section
/-! DEFINITION. The system command CONFIGURE (43_system_and_host.md R180 to R183). -/

namespace Sys2Proof.Machine

/-- `valid_config()`, conditions (a) to (g) of R181, with the sizes of the block. -/
def State.validConfig (s : State) : Bool :=
  1 ≤ s.cw.toNat && s.cpoly < 2 ^ s.cw.toNat && s.cinit < 2 ^ s.cw.toNat
    && s.wlen.toNat % 8 == 0 && 8 ≤ s.wlen.toNat
    && s.cw.toNat ≤ s.sizes.cwMax && s.wlen.toNat ≤ 8 * s.sizes.nbMax

/-- A valid configuration taken over: READY, and `CTAB` built in a block that has it (R180; 40_crc_engine.md R105). -/
def makeReady (s : State) : State :=
  { s with
    lifecycle := .ready
    ctab := s.ctab.map fun _ => buildTable s.cw.toNat s.cpoly }

/-- The work of CONFIGURE in UNCONFIGURED: READY and the table, or ConfigurationError (R180; 40_crc_engine.md R105). -/
def configureBlock (s : State) : State :=
  if s.validConfig then finish (makeReady s) else raise .configurationError s

/-- CONFIGURE (R180): one step at acceptance. -/
def execConfigure (s : State) : Result :=
  match s.phase with
  | .idle => .next (whenAllowed .configure s configureBlock)
  | .encode | .exchange | .reassemble | .check => .fault .phaseNotOfCommand

end Sys2Proof.Machine
end

