-- ==== Sys2Proof/Machine/Transactions.lean ====
section
/-! DEFINITION. The transactions WRITE and READ (42_transactions.md R160, R161). The flag `V` has no effect
(30_encoding.md R82). -/

namespace Sys2Proof.Machine

/-- WRITE (R160): acceptance, ENCODE, EXCHANGE. -/
def execWrite (c v : Bool) (s : State) : Result :=
  match s.phase with
  | .idle => .next (whenAllowed (.write c v) s enterEncode)
  | .encode => .next (encodePhase c toExchange s)
  | .exchange => .next (exchangePhase finish s)
  | .reassemble | .check => .fault .phaseNotOfCommand

/-- READ (R161): acceptance, ENCODE, EXCHANGE, REASSEMBLE, and CHECK when `C = 1`. -/
def execRead (c v : Bool) (s : State) : Result :=
  match s.phase with
  | .idle => .next (whenAllowed (.read c v) s enterEncode)
  | .encode => .next (encodePhase c toExchange s)
  | .exchange => .next (exchangePhase toReassemble s)
  | .reassemble => .next (reassemblePhase c s)
  | .check => if c then .next (checkPhase s) else .fault .phaseNotOfCommand

end Sys2Proof.Machine
end

