-- ==== Sys2Proof/Machine/Dispatch.lean ====
section
/-! DEFINITION. The step of a command in the current phase, one arm per constructor: in IDLE the steps 3 and 4 of
acceptance (30_encoding.md R81), in the other phases the command's phase step (10_state.md R31). Assumption 8. -/

namespace Sys2Proof.Machine

def exec (i : Instr) (s : State) : Host.Outcome State Fault Refusal :=
  match i with
  | .configure => Sys2Proof.Machine.execConfigure s
  | .encode c => Sys2Proof.Machine.execEncode c s
  | .write c v => Sys2Proof.Machine.execWrite c v s
  | .read c v => Sys2Proof.Machine.execRead c v s
  | .genCrc => Sys2Proof.Machine.execGenCrc s
  | .crcStart => Sys2Proof.Machine.execCrcStart s
  | .crcByte d => Sys2Proof.Machine.execCrcByte d s

end Sys2Proof.Machine
end

