-- ==== Sys2Proof/Machine/RegSpace.lean ====
section
/-! DEFINITION. The register space the host reaches (20_memory.md R62 to R66): the map, the register reads and the
register writes, all but the write to `CMD`, which issues a command. -/

namespace Sys2Proof.Machine

/-- The named registers of the map (R65); an argument is a limb's number or a buffer register's number. -/
inductive RegName where
  | cmd | status | txlen | rxlen | bussel | ckrate | wlen | cwidth
  | cpoly (j : Fin 2) | cinit (j : Fin 2) | creg (j : Fin 2) | crcrx (j : Fin 2) | crccalc (j : Fin 2)
  | payload (j : Fin 2) | word (j : Fin 4) | full (j : Fin 4) | txf (j : Fin 4) | rxf (j : Fin 4) | standin (j : Fin 4)
  deriving DecidableEq, Repr

/-- The register map (R65); `none` is a reserved offset. It is drawn for the reference sizes; a block of other sizes
keeps its offsets: assumption 28. -/
def regAt : Nat → Option RegName
  | 0x00 => some .cmd
  | 0x04 => some .status
  | 0x08 => some .txlen
  | 0x0C => some .rxlen
  | 0x10 => some .bussel
  | 0x14 => some .ckrate
  | 0x18 => some .wlen
  | 0x1C => some .cwidth
  | 0x20 => some (.cpoly 0)
  | 0x24 => some (.cpoly 1)
  | 0x28 => some (.cinit 0)
  | 0x2C => some (.cinit 1)
  | 0x30 => some (.creg 0)
  | 0x34 => some (.creg 1)
  | 0x38 => some (.crcrx 0)
  | 0x3C => some (.crcrx 1)
  | 0x40 => some (.crccalc 0)
  | 0x44 => some (.crccalc 1)
  | 0x48 => some (.payload 0)
  | 0x4C => some (.payload 1)
  | 0x50 => some (.word 0)
  | 0x54 => some (.word 1)
  | 0x58 => some (.word 2)
  | 0x5C => some (.word 3)
  | 0x60 => some (.full 0)
  | 0x64 => some (.full 1)
  | 0x68 => some (.full 2)
  | 0x6C => some (.full 3)
  | 0x80 => some (.txf 0)
  | 0x84 => some (.txf 1)
  | 0x88 => some (.txf 2)
  | 0x8C => some (.txf 3)
  | 0x90 => some (.rxf 0)
  | 0x94 => some (.rxf 1)
  | 0x98 => some (.rxf 2)
  | 0x9C => some (.rxf 3)
  | 0xA0 => some (.standin 0)
  | 0xA4 => some (.standin 1)
  | 0xA8 => some (.standin 2)
  | 0xAC => some (.standin 3)
  | _ => none

/-- The one kind of access the register space defines: aligned, 32 bits, below `0x100` (R66). -/
def accessDefined (addr bytes : Nat) : Bool :=
  bytes == 4 && addr % 4 == 0 && addr < 0x100

/-- Limb `j` of a wide value, limb 0 least significant (R62). -/
def limb (x j : Nat) : Word32 := BitVec.ofNat 32 (x >>> (32 * j))

/-- A value of `width` bits with limb `j` replaced by `v` (R62); the bits of `v` beyond `width` are no bits of the
register and are dropped (R64). -/
def setLimb (width x j : Nat) (v : Word32) : Nat :=
  x % 2 ^ (32 * j) + (v.toNat % 2 ^ (width - 32 * j)) * 2 ^ (32 * j) + (x >>> (32 * (j + 1))) * 2 ^ (32 * (j + 1))

/-- Byte `i` of a buffer; beyond `NF_MAX` there is no byte and the lane reads 0. Assumption 28. -/
def lane (b : Buffer) (i : Nat) : Byte := b.getD i 0

/-- Bytes `4j` to `4j + 3` of a buffer as a register, the byte at the lowest offset in bits `[7:0]` (R62). -/
def bufferLimb (b : Buffer) (j : Nat) : Word32 :=
  lane b (4 * j + 3) ++ lane b (4 * j + 2) ++ lane b (4 * j + 1) ++ lane b (4 * j)

/-- A buffer with bytes `4j` to `4j + 3`, as far as it has them, replaced by the bytes of `v` (R62). -/
def setBufferLimb (b : Buffer) (j : Nat) (v : Word32) : Buffer :=
  b.mapIdx fun i x => if i / 4 = j then v.extractLsb' (8 * (i % 4)) 8 else x

/-- The current value of a register (R65); `BPU` reads 8 (10_state.md R26). -/
def State.regValue (s : State) : RegName → Word32
  | .cmd => s.cmd
  | .status => s.status
  | .txlen => BitVec.ofNat 32 s.txlen
  | .rxlen => BitVec.ofNat 32 s.rxlen
  | .bussel =>
    s.busidx.setWidth 32 ||| (s.devidx.setWidth 32 <<< 8) ||| (s.ckmode.setWidth 32 <<< 16) ||| bitAt s.nobus 31
  | .ckrate => s.ckrate
  | .wlen => s.wlen.setWidth 32 ||| (Config.bpu.setWidth 32 <<< 16)
  | .cwidth => s.cw.setWidth 32
  | .cpoly j => limb s.cpoly j.val
  | .cinit j => limb s.cinit j.val
  | .creg j => limb s.creg j.val
  | .crcrx j => limb s.crcrx j.val
  | .crccalc j => limb s.crccalc j.val
  | .payload j => limb s.payload j.val
  | .word j => limb s.word j.val
  | .full j => limb s.full j.val
  | .txf j => bufferLimb s.txf j.val
  | .rxf j => bufferLimb s.rxf j.val
  | .standin j => bufferLimb s.standin j.val

/-- The value at an offset: a reserved offset reads 0 (R63). -/
def State.valueAt (s : State) (addr : Nat) : Word32 :=
  match regAt addr with
  | some r => s.regValue r
  | none => 0

/-- `MemRead(addr, 4)` (R63): the current value; while a command runs any value, drawn afresh, for every offset but
`CMD` and `STATUS` (70_reset_and_hazards.md R244). Only `readData` and the count of draws change. -/
def memRead (addr bytes : Nat) (s : State) : Result :=
  if accessDefined addr bytes then
    if s.busy && addr != 0x00 && addr != 0x04 then
      .next { s with readData := Config.freeWord s.draws, draws := s.draws + 1 }
    else .next { s with readData := s.valueAt addr }
  else .refused .undefinedAccess

/-- The effect of an idle-time write on a register (R64 (c) to (e)): a configuration register takes the writable bits
while UNCONFIGURED (43_system_and_host.md R182), `WORD` and `STANDIN` take the value, a read-only register ignores it.
`CMD` is not written here. -/
def writeReg (r : RegName) (v : Word32) (s : State) : State :=
  match r with
  | .word j => { s with word := setLimb (8 * s.sizes.nfMax) s.word j.val v }
  | .standin j => { s with standin := setBufferLimb s.standin j.val v }
  | .bussel =>
    if s.lifecycle = .unconfigured then
      { s with
        busidx := v.extractLsb' 0 8
        devidx := v.extractLsb' 8 8
        ckmode := v.extractLsb' 16 2
        nobus := v.getLsbD 31 }
    else s
  | .ckrate => if s.lifecycle = .unconfigured then { s with ckrate := v } else s
  | .wlen => if s.lifecycle = .unconfigured then { s with wlen := v.extractLsb' 0 16 } else s
  | .cwidth => if s.lifecycle = .unconfigured then { s with cw := v.extractLsb' 0 8 } else s
  | .cpoly j => if s.lifecycle = .unconfigured then { s with cpoly := setLimb s.sizes.cwMax s.cpoly j.val v } else s
  | .cinit j => if s.lifecycle = .unconfigured then { s with cinit := setLimb s.sizes.cwMax s.cinit j.val v } else s
  | .cmd | .status | .txlen | .rxlen | .creg _ | .crcrx _ | .crccalc _ | .payload _ | .full _ | .txf _ | .rxf _ => s

/-- An idle-time write at an offset other than `CMD`: a reserved offset ignores it (R64 (e)). -/
def writeAt (addr : Nat) (v : Word32) (s : State) : State :=
  match regAt addr with
  | some r => writeReg r v s
  | none => s

end Sys2Proof.Machine
end

