-- ==== Sys2Proof/Machine/Sequencer.lean ====
section
/-! DEFINITION. What one turn of the machine does: the host's accesses, the issue of a command, the sequencer's phase
step, the reset input (00_scope.md R14; 20_memory.md R63, R64; 30_encoding.md R81; 70_reset_and_hazards.md R230), and
the whole command as one step of level C (00_scope.md R15). `Step.lean` only calls `takeTurn`. -/

namespace Sys2Proof.Machine

/-- Acceptance of a command word (R81): step 1, then IllegalCommand or the command's own step. -/
def issue (w : Word32) (s : State) : Result :=
  match decode w with
  | .ok i => exec i (accept w s)
  | .error _ => .next (raise .illegalCommand (accept w s))

/-- `MemWrite(addr, 4, v)` (20_memory.md R64): dropped while a command runs, else a command at offset 0, else a
register write. -/
def memWrite (addr bytes : Nat) (v : Word32) (s : State) : Result :=
  if accessDefined addr bytes then
    if s.busy then .next s
    else if addr = 0x00 then issue v s
    else .next (writeAt addr v s)
  else .refused .undefinedAccess

/-- The sequencer's turn: the phase step of the command in `CMD` (10_state.md R31, R32); nothing while idle. -/
def sequencerStep (s : State) : Result :=
  if s.busy then
    match decode s.cmd with
    | .ok i => exec i s
    | .error _ => .fault .phaseNotOfCommand
  else .next s

/-- The host's wait: it polls `STATUS` until `BUSY = 0`, and while it polls the sequencer moves; the entry stays on
the agenda until the wait is over (43_system_and_host.md section 2). Assumption 19; while the reset input is asserted,
assumption 29. -/
def hostWaits (rest : List Turn) (s : State) : Result :=
  if s.busy then sequencerStep s else memRead 0x04 4 { s with agenda := rest }

/-- One turn while the reset input is released. -/
def turnRunning (t : Turn) (rest : List Turn) (s : State) : Result :=
  match t with
  | .hostRead addr bytes => memRead addr bytes { s with agenda := rest }
  | .hostWrite addr bytes v => memWrite addr bytes v { s with agenda := rest }
  | .hostWait => hostWaits rest s
  | .sequencer => sequencerStep { s with agenda := rest }
  | .rst true => .next (resetBlock { cutExchange s with agenda := rest, rst := true })
  | .rst false => .next { s with agenda := rest }

/-- One turn while the reset input is asserted: the block does nothing and accepts no access; release leaves it in the
reset state (70_reset_and_hazards.md R230). Assumption 11. The spec does not say what a waiting host does meanwhile: here
its wait ends at once, with no read of `STATUS`. DESIGN CHOICE, assumption 29. -/
def turnInReset (t : Turn) (rest : List Turn) (s : State) : Result :=
  match t with
  | .rst false => .next (resetBlock { s with agenda := rest, rst := false })
  | .hostRead _ _ | .hostWrite _ _ _ | .hostWait | .sequencer | .rst true => .next { s with agenda := rest }

/-- One step of the machine: the next turn of the agenda; with an empty agenda the sequencer moves (assumption 20). -/
def takeTurn (s : State) : Result :=
  match s.agenda with
  | [] => if s.rst then .next s else sequencerStep s
  | t :: rest => if s.rst then turnInReset t rest s else turnRunning t rest s

/-- Phase steps of a running command until it is idle, at most `k` of them (10_state.md R31). -/
def finishPhases : Nat → Instr → State → Result
  | 0, _, s => .next s
  | k + 1, i, s =>
    if s.busy then
      match exec i s with
      | .next t => finishPhases k i t
      | .fault r => .fault r
      | .refused r => .refused r
    else .next s

/-- A whole command from acceptance to IDLE, with no other agent's turn between its steps: the step of level C
(00_scope.md R15; 70_reset_and_hazards.md R243, R253). -/
def runCommand (i : Instr) (s : State) : Result :=
  match exec i s with
  | .next t => finishPhases 4 i t
  | .fault r => .fault r
  | .refused r => .refused r

/-- An accepted command word carried out whole (level C). -/
def runWord (w : Word32) (s : State) : Result :=
  match decode w with
  | .ok i => runCommand i (accept w s)
  | .error _ => .next (raise .illegalCommand (accept w s))

/-- Command words carried out whole, one after another (20_memory.md R73 (a)). -/
def runWords : List Word32 → State → Result
  | [], s => .next s
  | w :: ws, s =>
    match runWord w s with
    | .next t => runWords ws t
    | .fault r => .fault r
    | .refused r => .refused r

end Sys2Proof.Machine
end

