-- ==== Sys2Proof/Machine/Step.lean ====
section
/-! DEFINITION. One step of the machine, and the placing of a command where the next step takes it. -/

namespace Sys2Proof.Machine

/-- One step: the next agent's turn. -/
def step (s : State) : Host.Outcome State Fault Refusal := takeTurn s

/-- The state whose next step accepts and runs the command word `w` (its bits above `nbits` are 0): the reset input is
released, the block idle, and the host's next access is the write of `w` to `CMD`. Assumption 13. -/
def State.withFetchWord (s : State) (nbits w : Nat) : State :=
  { s with
    rst := false
    phase := .idle
    agenda := .hostWrite 0x00 4 (BitVec.ofNat 32 (w % 2 ^ nbits)) :: s.agenda }

end Sys2Proof.Machine
end

