-- ==== Sys2Proof/Machine/HostTool.lean ====
section
/-! DEFINITION. The host agent: the numeral parser (41_word_codec.md R140, R141) and the command-line procedures as
the accesses they put on the agenda and the report they make from the registers afterwards (43_system_and_host.md R184
to R190; 30_encoding.md R88, R89). These rules are outside the block. -/

namespace Sys2Proof.Machine

/-- The value of a decimal digit. -/
def decDigit (ch : Char) : Option Nat :=
  if '0'.toNat ≤ ch.toNat ∧ ch.toNat ≤ '9'.toNat then some (ch.toNat - '0'.toNat) else none

/-- The value of a hexadecimal digit, of either case. -/
def hexDigit (ch : Char) : Option Nat :=
  if '0'.toNat ≤ ch.toNat ∧ ch.toNat ≤ '9'.toNat then some (ch.toNat - '0'.toNat)
  else if 'a'.toNat ≤ ch.toNat ∧ ch.toNat ≤ 'f'.toNat then some (ch.toNat - 'a'.toNat + 10)
  else if 'A'.toNat ≤ ch.toNat ∧ ch.toNat ≤ 'F'.toNat then some (ch.toNat - 'A'.toNat + 10)
  else none

/-- The value of the digits after an accumulated value, `none` at the first character that is no digit. -/
def digitsFrom (digit : Char → Option Nat) (base : Nat) : Nat → List Char → Option Nat
  | acc, [] => some acc
  | acc, ch :: rest =>
    match digit ch with
    | some k => digitsFrom digit base (acc * base + k) rest
    | none => none

/-- One or more digits. -/
def numeral (digit : Char → Option Nat) (base : Nat) (chars : List Char) : Option Nat :=
  if chars.isEmpty then none else digitsFrom digit base 0 chars

/-- `parse_input(raw)`: `0x` or `0X` and hexadecimal digits, or decimal digits; `none` is FormatError (R140). -/
def parseInput (raw : List Char) : Option Nat :=
  match raw with
  | '0' :: 'x' :: rest => numeral hexDigit 16 rest
  | '0' :: 'X' :: rest => numeral hexDigit 16 rest
  | _ => numeral decDigit 10 raw

/-- Why a command line fails (60_exceptions.md R200 to R204). The last two are the block's own errors, which R186 to
R188 do not mention: assumption 18. -/
inductive ToolError where
  | formatError
  | overflowError
  | configurationError
  | illegalCommand
  | badState
  deriving DecidableEq, Repr

/-- What the host reports of a command line. `printed` is the number, whose text is not given (R187). -/
structure ToolReport where
  error : Option ToolError
  printed : Option Nat
  mismatch : Bool
  missingHardware : Bool
  exitCode : Nat
  deriving DecidableEq, Repr

/-- The operand of a command line: parsed, and refused when the `WORD` of a block of these sizes cannot hold it (R140,
R141). -/
def toolWord (z : Sizes) (raw : List Char) : Except ToolError Nat :=
  match parseInput raw with
  | none => .error .formatError
  | some w => if 2 ^ (8 * z.nfMax) ≤ w then .error .overflowError else .ok w

/-- The four writes of `WORD0..3` (R186; 20_memory.md R62). The map has no more limbs: assumption 28. -/
def wordWrites (w : Nat) : List Turn :=
  [.hostWrite 0x50 4 (limb w 0), .hostWrite 0x54 4 (limb w 1), .hostWrite 0x58 4 (limb w 2),
   .hostWrite 0x5C 4 (limb w 3)]

/-- The configuration the host takes from its store, with the backend it chose (R184, R193; 00_scope.md R18). -/
structure ToolConfig where
  busidx : BitVec 8
  devidx : BitVec 8
  ckmode : BitVec 2
  nobus : Bool
  ckrate : BitVec 32
  wlen : BitVec 16
  cw : BitVec 8
  cpoly : Nat
  cinit : Nat
  deriving DecidableEq, Repr

/-- Start-up, once after reset: the configuration registers, CONFIGURE, wait (R184; 70_reset_and_hazards.md R232). -/
def startUp (g : ToolConfig) : List Turn :=
  [.hostWrite 0x10 4
     (g.busidx.setWidth 32 ||| (g.devidx.setWidth 32 <<< 8) ||| (g.ckmode.setWidth 32 <<< 16) ||| bitAt g.nobus 31),
   .hostWrite 0x14 4 g.ckrate,
   .hostWrite 0x18 4 (g.wlen.setWidth 32),
   .hostWrite 0x1C 4 (g.cw.setWidth 32),
   .hostWrite 0x20 4 (limb g.cpoly 0), .hostWrite 0x24 4 (limb g.cpoly 1),
   .hostWrite 0x28 4 (limb g.cinit 0), .hostWrite 0x2C 4 (limb g.cinit 1),
   .hostWrite 0x00 4 0x00000001#32, .hostWait]

/-- Shut-down: there is no close command, the host simply makes no further access (R185). -/
def shutDown : List Turn := []

/-- The start of a process: a reset, then start-up, so that nothing of an earlier process is left (R185;
70_reset_and_hazards.md R232, R233). Assumption 27. -/
def processStart (g : ToolConfig) : List Turn := .rst true :: .rst false :: startUp g

/-- The accesses of a command line that sends a word: the operand, the command word, wait (R186 to R188). -/
def toolAccesses (z : Sizes) (raw : List Char) (cmd : Word32) : Except ToolError (List Turn) :=
  match toolWord z raw with
  | .error e => .error e
  | .ok w => .ok (wordWrites w ++ [.hostWrite 0x00 4 cmd, .hostWait])

/-- `spi write <word> [--crc] [--verbose]` (R186). -/
def spiWrite (z : Sizes) (raw : List Char) (crc verbose : Bool) : Except ToolError (List Turn) :=
  toolAccesses z raw (0x03#32 ||| flagBits crc verbose)

/-- `spi read <word> [--crc] [--verbose]` (R187). -/
def spiRead (z : Sizes) (raw : List Char) (crc verbose : Bool) : Except ToolError (List Turn) :=
  toolAccesses z raw (0x04#32 ||| flagBits crc verbose)

/-- `spi gen-crc <word>` (R188). -/
def spiGenCrc (z : Sizes) (raw : List Char) : Except ToolError (List Turn) :=
  toolAccesses z raw 0x05#32

/-- `benchmark spi-rd-wr`: `n` pairs of a WRITE and a READ, run whole one after another; the number of pairs actually
run, the word and the flags are parameters (R189; 30_encoding.md R89; 93_implementation_defined.md U11, U13). The spec
does not say whether the host issues further pairs once a command has ended with an error: here it goes on to the end.
DESIGN CHOICE, assumption 26. The exit code of the run is that of `benchmarkReport`. -/
def benchmarkSpi (z : Sizes) (n : Nat) (raw : List Char) (crc verbose : Bool) : Except ToolError (List Turn) :=
  match spiWrite z raw crc verbose, spiRead z raw crc verbose with
  | .ok w, .ok r => .ok (List.replicate n (w ++ r)).flatten
  | .error e, _ => .error e
  | _, .error e => .error e

/-- The error a host sees in `ERR` (60_exceptions.md R201). -/
def toolErrorOf : ErrKind → Option ToolError
  | .none => none
  | .overflowError => some .overflowError
  | .configurationError => some .configurationError
  | .illegalCommand => some .illegalCommand
  | .badState => some .badState

/-- Exit code of a host process: 0 on success, `EXIT_FAIL` on an error; a mismatch and missing hardware do not change it (R190). -/
def exitCode (e : Option ToolError) : Nat := if e.isSome then Config.exitFail else 0

/-- The report of a command line that failed before any access (R186; 41_word_codec.md R140, R141). -/
def failedReport (e : ToolError) : ToolReport where
  error := some e
  printed := none
  mismatch := false
  missingHardware := false
  exitCode := exitCode (some e)

/-- A 64-bit register as the host reads it, limb by limb (20_memory.md R62). -/
def readTwoLimbs (s : State) (base : Nat) : Nat :=
  (s.valueAt base).toNat + (s.valueAt (base + 4)).toNat * 2 ^ 32

/-- A 128-bit register as the host reads it, limb by limb (20_memory.md R62). -/
def readFourLimbs (s : State) (base : Nat) : Nat :=
  readTwoLimbs s base + readTwoLimbs s (base + 8) * 2 ^ 64

/-- The report after the wait: the error in `ERR`, or the number the command line prints (R186 to R190). -/
def reportAfter (number : Option Nat) (s : State) : ToolReport where
  error := toolErrorOf s.err
  printed := if s.err = .none then number else none
  mismatch := s.crcmm
  missingHardware := s.mhw
  exitCode := exitCode (toolErrorOf s.err)

/-- Start-up reports ConfigurationError and nothing else (R184). -/
def startUpReport (s : State) : ToolReport := reportAfter none s

/-- `spi write` prints nothing (R186). -/
def spiWriteReport (s : State) : ToolReport := reportAfter none s

/-- `spi read` prints `FULL`, mismatch or not (R187; 42_transactions.md R162). -/
def spiReadReport (s : State) : ToolReport := reportAfter (some (readFourLimbs s 0x60)) s

/-- `spi gen-crc` prints `CREG` (R188). -/
def spiGenCrcReport (s : State) : ToolReport := reportAfter (some (readTwoLimbs s 0x30)) s

/-- The command words of the benchmark's pairs, in order (R186, R187, R189). -/
def benchmarkCommands (n : Nat) (crc verbose : Bool) : List Word32 :=
  (List.replicate n [0x03#32 ||| flagBits crc verbose, 0x04#32 ||| flagBits crc verbose]).flatten

/-- The states in which the host's waits end, one for each command word, each command carried out whole (level C). -/
def commandStates : List Word32 → State → List State
  | [], _ => []
  | w :: ws, s =>
    match runWord w s with
    | .next t => t :: commandStates ws t
    | .fault _ => []
    | .refused _ => []

/-- The report of a benchmark whose waits ended in these states. R190 gives its exit code: 0 when every command
succeeded, `EXIT_FAIL` when one ended with an error. That the error named is the first one, and what else the report
holds, is the model's: assumption 26. -/
def benchmarkReport (states : List State) : ToolReport where
  error := states.findSome? fun s => toolErrorOf s.err
  printed := none
  mismatch := states.any (·.crcmm)
  missingHardware := states.any (·.mhw)
  exitCode := exitCode (states.findSome? fun s => toolErrorOf s.err)

/-- The outcome of a whole benchmark process on a block that start-up left in `s` (R189, R190): a bad operand is reported
before any access, otherwise the word is in `WORD` for every command of the pairs. -/
def benchmarkOutcome (n : Nat) (raw : List Char) (crc verbose : Bool) (s : State) : ToolReport :=
  match toolWord s.sizes raw with
  | .error e => failedReport e
  | .ok w => benchmarkReport (commandStates (benchmarkCommands n crc verbose) { s with word := w })

end Sys2Proof.Machine
end

