-- ==== Sys2Proof/Safety.lean ====
section
/-! DEFINITION. What the statements call a safe state, a defined turn and a legal move of the sequencer. -/

namespace Sys2Proof.Machine

/-- The host's turn is an access to which 20_memory.md R66 gives a meaning; other turns always are. -/
def Turn.defined : Turn → Bool
  | .hostRead addr bytes => accessDefined addr bytes
  | .hostWrite addr bytes _ => accessDefined addr bytes
  | .hostWait | .sequencer | .rst _ => true

/-- The next turn is the acceptance of a command: the host writes `CMD` while the block is idle and not in reset
(30_encoding.md R81). -/
abbrev State.accepts (s : State) : Prop :=
  s.rst = false ∧ s.phase = .idle ∧ ∃ w rest, s.agenda = .hostWrite 0x00 4 w :: rest

/-- The `C` flag of a command; 0 where it has none (30_encoding.md R82). -/
def crcFlagOf : Instr → Bool
  | .encode c => c
  | .write c _ => c
  | .read c _ => c
  | .configure | .genCrc | .crcStart | .crcByte _ => false

/-- The phases a command runs through (10_state.md R31). -/
def runsThrough (i : Instr) (p : Phase) : Bool :=
  match p, i with
  | .idle, _ => true
  | .encode, .encode _ | .encode, .write _ _ | .encode, .read _ _ | .encode, .genCrc => true
  | .exchange, .write _ _ | .exchange, .read _ _ => true
  | .reassemble, .read _ _ => true
  | .check, .read c _ => c
  | _, _ => false

/-- The moves of `PHASE` that 10_state.md R31 lists, by command; staying in IDLE is a command that completes at
acceptance or is refused. -/
def phaseMove (i : Instr) (p q : Phase) : Bool :=
  match p, q with
  | .idle, .idle => true
  | .idle, .encode => runsThrough i .encode
  | .encode, .idle => runsThrough i .encode
  | .encode, .exchange => runsThrough i .exchange
  | .exchange, .idle => runsThrough i .exchange && !runsThrough i .reassemble
  | .exchange, .reassemble => runsThrough i .reassemble
  | .reassemble, .idle => runsThrough i .reassemble && !crcFlagOf i
  | .reassemble, .check => runsThrough i .check
  | .check, .idle => runsThrough i .check
  | _, _ => false

/-- In READY the configuration is valid (43_system_and_host.md R181, R182). -/
abbrev State.ConfigInv (s : State) : Prop :=
  s.lifecycle = .ready → s.validConfig = true

/-- In READY the table, where the block has one, is that of the locked configuration (10_state.md R47). -/
abbrev State.TableInv (s : State) : Prop :=
  s.lifecycle = .ready → s.ctab = none ∨ s.ctab = some (buildTable s.cw.toNat s.cpoly)

/-- `CREG` fits the width in READY (10_state.md R46); before READY no rule writes it and it holds the reset value the
model names (assumption 3). -/
abbrev State.CregInv (s : State) : Prop :=
  (s.lifecycle = .ready → s.creg < 2 ^ s.cw.toNat) ∧ (s.lifecycle ≠ .ready → s.creg = 0)

/-- The frame lengths are at most `NF_MAX` (10_state.md R39, R40). -/
abbrev State.LengthInv (s : State) : Prop :=
  s.txlen ≤ s.sizes.nfMax ∧ s.rxlen ≤ s.sizes.nfMax

/-- The sizes of the block are legal, and every register and buffer whose size is a parameter keeps it (10_state.md
R29, R38 to R46; 00_scope.md R7; 41_word_codec.md R137: no value is cut to fit). -/
abbrev State.WidthInv (s : State) : Prop :=
  s.sizes.legal ∧
  s.cpoly < 2 ^ s.sizes.cwMax ∧ s.cinit < 2 ^ s.sizes.cwMax ∧ s.creg < 2 ^ s.sizes.cwMax ∧
  s.crcrx < 2 ^ s.sizes.cwMax ∧ s.crccalc < 2 ^ s.sizes.cwMax ∧
  s.payload < 2 ^ (8 * s.sizes.nbMax) ∧ s.word < 2 ^ (8 * s.sizes.nfMax) ∧ s.full < 2 ^ (8 * s.sizes.nfMax) ∧
  s.txf.length = s.sizes.nfMax ∧ s.rxf.length = s.sizes.nfMax ∧ s.standin.length = s.sizes.nfMax

/-- The status fields are consistent (10_state.md R34 to R37; 60_exceptions.md R209): a running command has raised
nothing and is not done; after an error neither `DONE` nor a flag is set. -/
abbrev State.StatusInv (s : State) : Prop :=
  (s.phase ≠ .idle → s.err = .none ∧ s.done = false ∧ s.crcmm = false) ∧
  (s.phase = .encode ∨ s.phase = .exchange → s.mhw = false) ∧
  (s.err ≠ .none → s.done = false ∧ s.crcmm = false ∧ s.mhw = false)

/-- What the phases a command has been through have left (42_transactions.md R150, R151, R155). -/
def framesReady (i : Instr) (s : State) : Bool :=
  match s.phase with
  | .idle | .encode => true
  | .exchange => s.txlen == s.nf (crcFlagOf i)
  | .reassemble => s.txlen == s.nf (crcFlagOf i) && s.rxlen == s.txlen
  | .check => s.full < 2 ^ (8 * s.nf true)

/-- A command runs only in READY, it is the one in `CMD`, and it is in a phase of its own (10_state.md R31, R32). -/
def State.flowOk (s : State) : Bool :=
  s.phase == .idle ||
    (s.lifecycle == .ready &&
      match decode s.cmd with
      | .ok i => runsThrough i s.phase && framesReady i s
      | .error _ => false)

/-- The invariant of the machine. -/
abbrev State.Inv (s : State) : Prop :=
  s.WidthInv ∧ s.ConfigInv ∧ s.TableInv ∧ s.CregInv ∧ s.LengthInv ∧ s.StatusInv ∧ s.flowOk = true

end Sys2Proof.Machine
end

