-- ==== Sys2Proof/Certificates/Slice0/Obligations.lean ====
section
/-! DEFINITION. The statements for the provers, from the numbered rules of spec/. Each docstring names the rules. -/

open Sys2Proof Sys2Proof.Machine

/-! ### The CRC Engine (40_crc_engine.md) -/

/-- R100: bit `k` of the next register is bit `k - 1` of the register (0 for `k = 0`), XOR bit `k` of the polynomial
when the bit leaving the top differs from the input bit; the result is below `2^W`. R104: at width 1 it is the
polynomial or 0. -/
def Obligations.CrcBitPolynomialStep : Prop :=
  (∀ W P reg b : Nat, 1 ≤ W → P < 2 ^ W → reg < 2 ^ W → b < 2 →
    crcBit W P reg b < 2 ^ W ∧
    ∀ k, (crcBit W P reg b).testBit k =
      (decide (k < W) && ((decide (0 < k) && reg.testBit (k - 1)) ^^
        ((reg.testBit (W - 1) ^^ (b == 1)) && P.testBit k)))) ∧
  ∀ P reg b : Nat, P < 2 → reg < 2 → b < 2 → crcBit 1 P reg b = if reg ^^^ b = 1 then P else 0

/-- R101: eight bit steps, bit 7 of the byte first and bit 0 last, no bit reordered. -/
def Obligations.CrcByteTakesBitSevenFirst : Prop :=
  ∀ (W P reg : Nat) (d : Byte),
    let r7 := crcBit W P reg (d.getLsbD 7).toNat
    let r6 := crcBit W P r7 (d.getLsbD 6).toNat
    let r5 := crcBit W P r6 (d.getLsbD 5).toNat
    let r4 := crcBit W P r5 (d.getLsbD 4).toNat
    let r3 := crcBit W P r4 (d.getLsbD 3).toNat
    let r2 := crcBit W P r3 (d.getLsbD 2).toNat
    let r1 := crcBit W P r2 (d.getLsbD 1).toNat
    let r0 := crcBit W P r1 (d.getLsbD 0).toNat
    crcByte W P reg d = r0

/-- R103: (a) range, (c) empty input, (d) composition, (e) linearity over XOR, (f) leading zero bytes and the word
length with initial value 0, and a case with another initial value where a leading zero byte counts. (b) and (g) hold of
every Lean function. -/
def Obligations.ComputeCrcProperties : Prop :=
  (∀ W P : Nat, 1 ≤ W → P < 2 ^ W →
    (∀ data I, I < 2 ^ W → computeCrc data W P I < 2 ^ W) ∧
    (∀ I, computeCrc [] W P I = I) ∧
    (∀ a b I, computeCrc (a ++ b) W P I = computeCrc b W P (computeCrc a W P I)) ∧
    (∀ r s (d e : Byte), r < 2 ^ W → s < 2 ^ W →
      crcByte W P (r ^^^ s) (d ^^^ e) = crcByte W P r d ^^^ crcByte W P s e) ∧
    (∀ r (d : Byte), r < 2 ^ W → crcByte W P r d = crcByte W P r 0 ^^^ crcByte W P 0 d) ∧
    crcByte W P 0 0 = 0 ∧
    (∀ data, computeCrc (0 :: data) W P 0 = computeCrc data W P 0) ∧
    (∀ v n m, v < 2 ^ (8 * n) → n ≤ m → computeCrc (be v m) W P 0 = computeCrc (be v n) W P 0)) ∧
  ∃ (W P I : Nat) (data : Frame), 1 ≤ W ∧ P < 2 ^ W ∧ I < 2 ^ W ∧
    computeCrc (0 :: data) W P I ≠ computeCrc data W P I

/-- R105: entry `i` of the table built for a legal configuration is the register after the byte `i` from a zero
register, and fits the width (R47: `CW_MAX` bits each, for every `CW_MAX`); it depends on the width and the polynomial
only. -/
def Obligations.TableHoldsByteSteps : Prop :=
  ∀ W P i : Nat, 1 ≤ W → P < 2 ^ W → (h : i < 256) →
    (buildTable W P)[i] = crcByte W P 0 (BitVec.ofNat 8 i) ∧
    ∀ cwMax, W ≤ cwMax → (buildTable W P)[i] < 2 ^ cwMax

/-- R106: the table step as the rule writes it, and its equality with the byte step for every width, polynomial, register
and byte. -/
def Obligations.TableStepEqualsByteStep : Prop :=
  (∀ (T : Nat → Nat) (W reg : Nat) (d : Byte), 8 ≤ W →
    crcByteT T W reg d = ((reg <<< 8) % 2 ^ W) ^^^ T ((reg >>> (W - 8)) ^^^ d.toNat)) ∧
  (∀ (T : Nat → Nat) (W reg : Nat) (d : Byte), W < 8 →
    crcByteT T W reg d = T (((reg <<< (8 - W)) % 256) ^^^ d.toNat)) ∧
  ∀ (W P reg : Nat) (d : Byte), 1 ≤ W → P < 2 ^ W → reg < 2 ^ W →
    crcByteT (tableEntry W P) W reg d = crcByte W P reg d

/-- R8, R106, R107: in READY the engine of the block, with the table or without it, computes `crc_byte` and
`compute_crc` of the locked configuration. -/
def Obligations.BlockEngineComputesCrc : Prop :=
  ∀ s : State, s.Inv → s.lifecycle = .ready →
    (∀ (reg : Nat) (d : Byte), reg < 2 ^ s.cw.toNat →
      s.engineByte reg d = crcByte s.cw.toNat s.cpoly reg d) ∧
    ∀ f : Frame, s.engineRun f = computeCrc f s.cw.toNat s.cpoly s.cinit

/-! ### The Word Codec and the frame functions (41_word_codec.md, 42_transactions.md section 1) -/

/-- R130: `BE(v, n)` byte by byte, its length, its zero padding, and the empty frame. -/
def Obligations.BigEndianBytes : Prop :=
  be 0 0 = [] ∧
  ∀ v n : Nat, v < 2 ^ (8 * n) →
    (be v n).length = n ∧
    (∀ i, i < n → (be v n)[i]? = some (BitVec.ofNat 8 (v >>> (8 * (n - 1 - i)) % 256))) ∧
    ∀ m, m ≤ n → v < 2 ^ (8 * m) → be v n = List.replicate (n - m) 0 ++ be v m

/-- R131: `INT(f)` is the sum of `f[i] * 256^(n - 1 - i)`, 0 for the empty frame, below `2^(8n)`. -/
def Obligations.BigEndianValue : Prop :=
  intOf [] = 0 ∧
  ∀ f : Frame,
    intOf f = ∑ i : Fin f.length, (f[i]).toNat * 256 ^ (f.length - 1 - i.val) ∧
    intOf f < 2 ^ (8 * f.length)

/-- R132: the four laws of `BE` and `INT`. -/
def Obligations.CodecRoundTrip : Prop :=
  (∀ v n : Nat, v < 2 ^ (8 * n) → intOf (be v n) = v) ∧
  (∀ f : Frame, be (intOf f) f.length = f) ∧
  (∀ f g : Frame, intOf (f ++ g) = intOf f * 2 ^ (8 * g.length) + intOf g) ∧
  (∀ v n : Nat, (be v n).length = n)

/-- R133: overflow first and absolute, else the word's bytes, else the word's bytes and the CRC's, sized exactly, with
the pad bits 0. -/
def Obligations.EncodeFrameRule : Prop :=
  ∀ word bc W P I : Nat, 1 ≤ bc → 1 ≤ W → P < 2 ^ W → I < 2 ^ W →
    (∀ c, 2 ^ (8 * bc) ≤ word → encodeFrame word bc c W P I = none) ∧
    (word < 2 ^ (8 * bc) →
      encodeFrame word bc false W P I = some (be word bc) ∧
      encodeFrame word bc true W P I
        = some (be word bc ++ be (computeCrc (be word bc) W P I) ((W + 7) / 8)) ∧
      (be word bc).length = bc ∧
      (be (computeCrc (be word bc) W P I) ((W + 7) / 8)).length = (W + 7) / 8 ∧
      intOf (be (computeCrc (be word bc) W P I) ((W + 7) / 8)) < 2 ^ W)

/-- R134: (a) overflow with or without CRC, (b) the CRC round trip, (c) the prefix, (d) the frame as an integer. -/
def Obligations.EncodeFrameProperties : Prop :=
  ∀ word bc W P I : Nat, 1 ≤ bc → 1 ≤ W → P < 2 ^ W → I < 2 ^ W →
    (2 ^ (8 * bc) ≤ word → ∀ c, encodeFrame word bc c W P I = none) ∧
    ∀ F, encodeFrame word bc true W P I = some F →
      F.length = bc + (W + 7) / 8 ∧
      intOf (F.drop bc) = computeCrc (F.take bc) W P I ∧
      encodeFrame word bc false W P I = some (F.take bc) ∧
      intOf F = word * 2 ^ (8 * ((W + 7) / 8)) + computeCrc (be word bc) W P I

/-- R153: the full word is the OR of the two integers, fits the frame, and is the OR byte by byte. -/
def Obligations.ReassembleIsBytewiseOr : Prop :=
  ∀ tx rx : Frame, tx.length = rx.length →
    reassemble tx rx = intOf rx ||| intOf tx ∧
    reassemble tx rx < 2 ^ (8 * tx.length) ∧
    ∀ (i : Nat) (hr : i < rx.length) (ht : i < tx.length),
      (be (reassemble tx rx) tx.length)[i]? = some (rx[i] ||| tx[i])

/-- R154: the received CRC is the low `W` bits, the payload is what lies above the CRC field and fits its bytes, and the
mismatch says that the received and the recomputed CRC differ. R158: the pad bits `[8*CBC-1 : W]` of the full word
change nothing in the check. -/
def Obligations.CrcCheckRule : Prop :=
  (∀ full bc W P I : Nat, 1 ≤ W → P < 2 ^ W → I < 2 ^ W → full < 2 ^ (8 * (bc + (W + 7) / 8)) →
    let r := crcCheck full bc W P I
    r.crcrx = full % 2 ^ W ∧
    r.payload = full / 2 ^ (8 * ((W + 7) / 8)) ∧
    r.payload < 2 ^ (8 * bc) ∧
    r.recomputed = computeCrc (be r.payload bc) W P I ∧
    (r.mismatch = true ↔ r.crcrx ≠ r.recomputed)) ∧
  ∀ full pad bc W P I : Nat, pad < 2 ^ (8 * ((W + 7) / 8) - W) →
    crcCheck (full ^^^ (pad <<< W)) bc W P I = crcCheck full bc W P I

/-- R159 (d) and R134 (d): the check of the block's own well-formed frame gives the word, its CRC twice and no
mismatch. -/
def Obligations.OwnFrameChecks : Prop :=
  ∀ (word bc W P I : Nat) (F : Frame), 1 ≤ bc → 1 ≤ W → P < 2 ^ W → I < 2 ^ W →
    encodeFrame word bc true W P I = some F →
    crcCheck (intOf F) bc W P I =
      { crcrx := computeCrc (be word bc) W P I
        payload := word
        recomputed := computeCrc (be word bc) W P I
        mismatch := false }

/-- R159: the consequences (a) to (d) of the OR for a frame `tx` and an answer `rx` of its length, and an answer that is
well formed and still flagged. -/
def Obligations.OverlayConsequences : Prop :=
  (∀ tx rx : Frame, tx.length = rx.length →
    ((∀ b ∈ tx, b = 0) → reassemble tx rx = intOf rx) ∧
    ∀ k, (intOf tx).testBit k = true → (reassemble tx rx).testBit k = true) ∧
  (∀ (word bc W P I : Nat) (tx rx : Frame), 1 ≤ bc → 1 ≤ W → P < 2 ^ W → I < 2 ^ W →
    encodeFrame word bc true W P I = some tx → rx.length = tx.length →
    (crcCheck (reassemble tx rx) bc W P I).crcrx = (intOf rx % 2 ^ W) ||| computeCrc (be word bc) W P I ∧
    ((∀ b ∈ rx, b = 0) →
      reassemble tx rx = intOf tx ∧
      (crcCheck (reassemble tx rx) bc W P I).payload = word ∧
      (crcCheck (reassemble tx rx) bc W P I).mismatch = false)) ∧
  ∃ (word answer bc W P I : Nat) (tx rx : Frame), 1 ≤ bc ∧ 1 ≤ W ∧ P < 2 ^ W ∧ I < 2 ^ W ∧
    encodeFrame word bc true W P I = some tx ∧ encodeFrame answer bc true W P I = some rx ∧
    (crcCheck (reassemble tx rx) bc W P I).mismatch = true

/-! ### The command words (30_encoding.md) -/

/-- R83, R80: decoding the word of an instruction gives it back, every field at every value. -/
def Obligations.DecodeOfEncode : Prop :=
  ∀ i : Instr, decode (encode i) = .ok i

/-- R82, R83, R84: the words the decoder takes are exactly the well-formed ones, and a word it takes is the word of the
instruction read from it: no bit of it is dropped. -/
def Obligations.LegalWordsAreTheWellFormed : Prop :=
  (∀ w : Word32, (∃ i, decode w = .ok i) ↔ wordWellFormed w = true) ∧
  ∀ (w : Word32) (i : Instr), decode w = .ok i → encode i = w

/-- R83: a word selects the row it matches, the rows are disjoint, and the free fields are read from their bits. -/
def Obligations.OpcodeMapSelectsOneRow : Prop :=
  (∀ (w : Word32) (i : Instr), decode w = .ok i → w &&& rowMask i = rowMatch i) ∧
  (∀ (w : Word32) (i : Instr), w &&& rowMask i = rowMatch i →
    ∃ j, decode w = .ok j ∧ rowMatch j = rowMatch i) ∧
  (∀ (w : Word32) (i j : Instr), w &&& rowMask i = rowMatch i → w &&& rowMask j = rowMatch j →
    rowMatch i = rowMatch j) ∧
  (∀ (w : Word32) (c : Bool), decode w = .ok (.encode c) → c = w.getLsbD 4) ∧
  (∀ (w : Word32) (c v : Bool), decode w = .ok (.write c v) ∨ decode w = .ok (.read c v) →
    c = w.getLsbD 4 ∧ v = w.getLsbD 5) ∧
  (∀ (w : Word32) (d : Byte), decode w = .ok (.crcByte d) → d = w.extractLsb' 8 8)

/-- R83: one word of every row, written out from its pattern, and two illegal words. -/
def Obligations.SampleWordsDecode : Prop :=
  decode 0b00000000000000000000000000000001#32 = .ok .configure ∧
  decode 0b00000000000000000000000000010010#32 = .ok (.encode true) ∧
  decode 0b00000000000000000000000000100011#32 = .ok (.write false true) ∧
  decode 0b00000000000000000000000000010100#32 = .ok (.read true false) ∧
  decode 0b00000000000000000000000000000101#32 = .ok .genCrc ∧
  decode 0b00000000000000000000000000000110#32 = .ok .crcStart ∧
  decode 0b00000000000000000011000100000111#32 = .ok (.crcByte 0x31) ∧
  decode 0b00000000000000000000000000000000#32 = .error .operation ∧
  decode 0b00000000000000010000000000000111#32 = .error .reservedBit

/-! ### A step of the machine -/

/-- R81, R32: the host's write of a legal word to `CMD` while idle runs the decoded command on the state after step 1 of
acceptance; while a command runs, each of the sequencer's turns runs the command in `CMD`. That the sequencer moves at
an empty agenda and while the host waits is the model's own (log entries 7, 19, 20). -/
def Obligations.StepRunsDecodedCommand : Prop :=
  ∀ (s : State) (i : Instr), s.rst = false →
    (∀ w rest, s.agenda = .hostWrite 0x00 4 w :: rest → s.phase = .idle → decode w = .ok i →
      step s = exec i
        { s with agenda := rest, cmd := w, err := .none, done := false, crcmm := false, mhw := false }) ∧
    (∀ rest, s.agenda = .sequencer :: rest → s.phase ≠ .idle → decode s.cmd = .ok i →
      step s = exec i { s with agenda := rest }) ∧
    (∀ rest, s.agenda = .hostWait :: rest → s.phase ≠ .idle → decode s.cmd = .ok i → step s = exec i s) ∧
    (s.agenda = [] → s.phase ≠ .idle → decode s.cmd = .ok i → step s = exec i s)

/-- R84, R207: an accepted illegal word raises IllegalCommand and changes only `CMD`, `ERR` and the cleared flags. -/
def Obligations.IllegalWordRaises : Prop :=
  ∀ (s : State) (w : Word32) (rest : List Turn),
    s.rst = false → s.phase = .idle → s.agenda = .hostWrite 0x00 4 w :: rest → wordWellFormed w = false →
    step s = .next
      { s with agenda := rest, cmd := w, err := .illegalCommand, done := false, crcmm := false, mhw := false }

/-- R85, R208: CONFIGURE is allowed in UNCONFIGURED only and the others in READY only; a legal command that is not
allowed raises BadState and does nothing else. -/
def Obligations.LifecycleGate : Prop :=
  (∀ l, allowedIn .configure l = true ↔ l = .unconfigured) ∧
  (∀ i l, i ≠ .configure → (allowedIn i l = true ↔ l = .ready)) ∧
  ∀ (i : Instr) (s : State), s.phase = .idle → allowedIn i s.lifecycle = false →
    exec i s = .next { s with err := .badState, done := false }

/-- R202: with a word that does not fit, the ENCODE phase of ENCODE, WRITE and READ and the step of GENCRC raise
OverflowError, whatever the flag and the CRC configuration, and write nothing else. -/
def Obligations.OverflowStopsTheCommand : Prop :=
  ∀ (i : Instr) (s : State), runsThrough i .encode = true → s.phase = .encode →
    2 ^ (8 * (s.wlen.toNat / 8)) ≤ s.word →
    exec i s = .next { s with err := .overflowError, done := false, phase := .idle }

/-! ### The commands, each run to its end -/

/-- R181, R6, R7: `valid_config()` is conditions (a) to (g), for a block of any sizes. -/
def Obligations.ValidConfigConditions : Prop :=
  ∀ s : State, s.validConfig = true ↔
    (1 ≤ s.cw.toNat ∧ s.cpoly < 2 ^ s.cw.toNat ∧ s.cinit < 2 ^ s.cw.toNat ∧
      s.wlen.toNat % 8 = 0 ∧ 8 ≤ s.wlen.toNat ∧ s.cw.toNat ≤ s.sizes.cwMax ∧ s.wlen.toNat ≤ 8 * s.sizes.nbMax)

/-- R180: CONFIGURE in UNCONFIGURED completes with READY and the table of R105, or takes ConfigurationError and is
FAILED; everything else is as before. -/
def Obligations.ConfigureCompletes : Prop :=
  ∀ s : State, s.phase = .idle → s.lifecycle = .unconfigured →
    (s.validConfig = true →
      exec .configure s = .next
        { s with
          lifecycle := .ready
          ctab := if s.ctab.isSome then some (buildTable s.cw.toNat s.cpoly) else none
          done := true }) ∧
    (s.validConfig = false →
      exec .configure s = .next
        { s with lifecycle := .failed, err := .configurationError, done := false })

/-- R108: CRCSTART loads `CREG` with `CINIT`; nothing else changes but `DONE`. -/
def Obligations.CrcStartCompletes : Prop :=
  ∀ s : State, s.phase = .idle → s.lifecycle = .ready →
    exec .crcStart s = .next { s with creg := s.cinit, done := true }

/-- R109: CRCBYTE takes one byte into `CREG`, with the table or without it; nothing else changes but `DONE`. -/
def Obligations.CrcByteCompletes : Prop :=
  ∀ (s : State) (d : Byte), s.Inv → s.phase = .idle → s.lifecycle = .ready →
    crcByte s.cw.toNat s.cpoly s.creg d < 2 ^ s.cw.toNat ∧
    exec (.crcByte d) s = .next
      { s with creg := crcByte s.cw.toNat s.cpoly s.creg d, done := true }

/-- R110: GENCRC is accepted into phase ENCODE, and there leaves the CRC of the word's `BC` bytes in `CREG`; nothing
else changes but `DONE` and `PHASE`. -/
def Obligations.GenCrcCompletes : Prop :=
  (∀ s : State, s.phase = .idle → s.lifecycle = .ready →
    exec .genCrc s = .next { s with phase := .encode }) ∧
  ∀ s : State, s.Inv → s.phase = .encode → s.word < 2 ^ (8 * s.bc) →
    exec .genCrc s = .next
      { s with
        creg := computeCrc (be s.word s.bc) s.cw.toNat s.cpoly s.cinit
        done := true
        phase := .idle }

/-- R135, R150: ENCODE is accepted into phase ENCODE, and there stores `encode(WORD, ...)` in `TXF` and `TXLEN`, and the
CRC in `CREG` when `C = 1`; nothing else changes but `DONE`, `PHASE` and the model's count of draws (log entries 4, 5).
-/
def Obligations.EncodeCompletes : Prop :=
  (∀ (c : Bool) (s : State), s.phase = .idle → s.lifecycle = .ready →
    exec (.encode c) s = .next { s with phase := .encode }) ∧
  ∀ (c : Bool) (s : State), s.Inv → s.phase = .encode → s.word < 2 ^ (8 * s.bc) →
    ∃ buf : Buffer, buf.length = s.sizes.nfMax ∧
      encodeFrame s.word s.bc c s.cw.toNat s.cpoly s.cinit
        = some (bufferPrefix buf (s.nf c)) ∧
      exec (.encode c) s = .next
        { s with
          txf := buf
          txlen := s.nf c
          creg :=
            if c then computeCrc (be s.word s.bc) s.cw.toNat s.cpoly s.cinit
            else s.creg
          draws := s.draws + s.sizes.nfMax
          done := true
          phase := .idle }

/-- R160, R150, R151: WRITE is accepted into phase ENCODE, stores the outbound frame there, and in phase EXCHANGE stores
the inbound frame and is done; the inbound frame is the stand-in bytes and sets `MHW` when `NOBUS = 1`, and is the bus
answer otherwise; nothing else changes but the model's own `draws`, `busIn` and `busLog` (log entries 4, 5, 16). -/
def Obligations.WriteCompletes : Prop :=
  (∀ (c v : Bool) (s : State), s.phase = .idle → s.lifecycle = .ready →
    exec (.write c v) s = .next { s with phase := .encode }) ∧
  (∀ (c v : Bool) (s : State), s.Inv → s.phase = .encode → s.word < 2 ^ (8 * s.bc) →
    ∃ buf : Buffer, buf.length = s.sizes.nfMax ∧
      encodeFrame s.word s.bc c s.cw.toNat s.cpoly s.cinit
        = some (bufferPrefix buf (s.nf c)) ∧
      exec (.write c v) s = .next
        { s with
          txf := buf
          txlen := s.nf c
          creg :=
            if c then computeCrc (be s.word s.bc) s.cw.toNat s.cpoly s.cinit
            else s.creg
          draws := s.draws + s.sizes.nfMax
          phase := .exchange }) ∧
  ∀ (c v : Bool) (s : State), s.Inv → s.phase = .exchange →
    ∃ buf : Buffer, buf.length = s.sizes.nfMax ∧
      bufferPrefix buf s.txlen
        = (if s.nobus then bufferPrefix s.standin s.txlen else busAnswer s s.txlen) ∧
      (bufferPrefix buf s.txlen).length = s.txlen ∧
      exec (.write c v) s = .next
        { s with
          rxf := buf
          rxlen := s.txlen
          mhw := s.nobus
          busIn := if s.nobus then s.busIn else s.busIn.drop s.txlen
          busLog := if s.nobus then s.busLog else s.busLog ++
            [{ busidx := s.busidx, devidx := s.devidx, ckmode := s.ckmode, ckrate := s.ckrate,
               out := bufferPrefix s.txf s.txlen }]
          draws := s.draws + s.txlen + s.sizes.nfMax
          done := true
          phase := .idle }

/-- R161, R81, R150, R151, R70, R71, R155, R156: READ goes through ENCODE and EXCHANGE as WRITE does; in REASSEMBLE it
leaves the full word, and with `C = 0` is done with `PAYLOAD = FULL` and zero CRC registers; with `C = 1` it is done in
CHECK with the four results of `crc_check`, a mismatch only setting `CRCMM`. Nothing else of the block changes in any of
these steps; the ENCODE and EXCHANGE steps also change the model's own `draws`, and EXCHANGE its `busIn` and `busLog`
(log entries 4, 5, 16). -/
def Obligations.ReadCompletes : Prop :=
  (∀ (c v : Bool) (s : State), s.phase = .idle → s.lifecycle = .ready →
    exec (.read c v) s = .next { s with phase := .encode }) ∧
  (∀ (c v : Bool) (s : State), s.Inv → s.phase = .encode → s.word < 2 ^ (8 * s.bc) →
    ∃ buf : Buffer, buf.length = s.sizes.nfMax ∧
      encodeFrame s.word s.bc c s.cw.toNat s.cpoly s.cinit
        = some (bufferPrefix buf (s.nf c)) ∧
      exec (.read c v) s = .next
        { s with
          txf := buf
          txlen := s.nf c
          creg :=
            if c then computeCrc (be s.word s.bc) s.cw.toNat s.cpoly s.cinit
            else s.creg
          draws := s.draws + s.sizes.nfMax
          phase := .exchange }) ∧
  (∀ (c v : Bool) (s : State), s.Inv → s.phase = .exchange →
    ∃ buf : Buffer, buf.length = s.sizes.nfMax ∧
      bufferPrefix buf s.txlen
        = (if s.nobus then bufferPrefix s.standin s.txlen else busAnswer s s.txlen) ∧
      (bufferPrefix buf s.txlen).length = s.txlen ∧
      exec (.read c v) s = .next
        { s with
          rxf := buf
          rxlen := s.txlen
          mhw := s.nobus
          busIn := if s.nobus then s.busIn else s.busIn.drop s.txlen
          busLog := if s.nobus then s.busLog else s.busLog ++
            [{ busidx := s.busidx, devidx := s.devidx, ckmode := s.ckmode, ckrate := s.ckrate,
               out := bufferPrefix s.txf s.txlen }]
          draws := s.draws + s.txlen + s.sizes.nfMax
          phase := .reassemble }) ∧
  (∀ (v : Bool) (s : State), s.Inv → s.phase = .reassemble → decode s.cmd = .ok (.read false v) →
    reassemble s.txFrame s.rxFrame < 2 ^ (8 * s.sizes.nbMax) ∧
    exec (.read false v) s = .next
      { s with
        full := reassemble s.txFrame s.rxFrame
        payload := reassemble s.txFrame s.rxFrame
        crcrx := 0
        crccalc := 0
        done := true
        phase := .idle }) ∧
  (∀ (v : Bool) (s : State), s.Inv → s.phase = .reassemble → decode s.cmd = .ok (.read true v) →
    reassemble s.txFrame s.rxFrame < 2 ^ (8 * s.nf true) ∧ s.nf true ≤ s.sizes.nfMax ∧
    exec (.read true v) s = .next
      { s with full := reassemble s.txFrame s.rxFrame, phase := .check }) ∧
  ∀ (v : Bool) (s : State), s.Inv → s.phase = .check →
    let r := crcCheck s.full s.bc s.cw.toNat s.cpoly s.cinit
    r.crcrx < 2 ^ s.sizes.cwMax ∧ r.payload < 2 ^ (8 * s.sizes.nbMax) ∧ r.recomputed < 2 ^ s.sizes.cwMax ∧
    exec (.read true v) s = .next
      { s with
        crcrx := r.crcrx
        payload := r.payload
        crccalc := r.recomputed
        creg := r.recomputed
        crcmm := r.mismatch
        done := true
        phase := .idle }

/-! ### Level C: whole commands as one step (00_scope.md R15) -/

/-- R135, R110, R15: an accepted ENCODE or GENCRC, carried out whole, is the one step of its rule. -/
def Obligations.EncodeAsOneStep : Prop :=
  (∀ (c : Bool) (s : State), s.Inv → s.phase = .idle → s.lifecycle = .ready →
    (2 ^ (8 * s.bc) ≤ s.word →
      runWord (encode (.encode c)) s = .next
        { s with
          cmd := encode (.encode c), err := .overflowError, done := false, crcmm := false, mhw := false }) ∧
    (s.word < 2 ^ (8 * s.bc) →
      ∃ t : State, runWord (encode (.encode c)) s = .next t ∧
        encodeFrame s.word s.bc c s.cw.toNat s.cpoly s.cinit = some t.txFrame ∧
        t.txlen = s.nf c ∧
        t = { s with
              cmd := encode (.encode c), err := .none, done := true, crcmm := false, mhw := false
              txf := t.txf
              txlen := t.txlen
              creg :=
                if c then computeCrc (be s.word s.bc) s.cw.toNat s.cpoly s.cinit
                else s.creg
              draws := t.draws })) ∧
  ∀ s : State, s.Inv → s.phase = .idle → s.lifecycle = .ready →
    (2 ^ (8 * s.bc) ≤ s.word →
      runWord (encode .genCrc) s = .next
        { s with cmd := encode .genCrc, err := .overflowError, done := false, crcmm := false, mhw := false }) ∧
    (s.word < 2 ^ (8 * s.bc) →
      runWord (encode .genCrc) s = .next
        { s with
          cmd := encode .genCrc, err := .none, done := true, crcmm := false, mhw := false
          creg := computeCrc (be s.word s.bc) s.cw.toNat s.cpoly s.cinit })

/-- R160, R15: an accepted WRITE, carried out whole, is the one step of its rule, with some inbound frame `inb` of the
outbound length: the stand-in bytes when `NOBUS = 1`, and otherwise a frame that begins with the bytes the bus agent has
ready. One exchange is made, and none when `NOBUS = 1` or the word does not fit. The bytes the agent has ready and the
log of exchanges are the model's own fields (log entries 4, 16). -/
def Obligations.WriteAsOneStep : Prop :=
  ∀ (c v : Bool) (s : State), s.Inv → s.phase = .idle → s.lifecycle = .ready →
    (2 ^ (8 * s.bc) ≤ s.word →
      runWord (encode (.write c v)) s = .next
        { s with
          cmd := encode (.write c v), err := .overflowError, done := false, crcmm := false, mhw := false }) ∧
    (s.word < 2 ^ (8 * s.bc) →
      ∃ (t : State) (tx inb : Frame), runWord (encode (.write c v)) s = .next t ∧
        encodeFrame s.word s.bc c s.cw.toNat s.cpoly s.cinit = some tx ∧
        inb.length = s.nf c ∧
        (s.nobus = true → inb = bufferPrefix s.standin (s.nf c)) ∧
        (s.nobus = false → inb.take s.busIn.length = s.busIn.take (s.nf c)) ∧
        t.txFrame = tx ∧ t.rxFrame = inb ∧ t.txlen = s.nf c ∧ t.rxlen = s.nf c ∧
        t = { s with
              cmd := encode (.write c v), err := .none, done := true, crcmm := false, mhw := s.nobus
              txf := t.txf
              txlen := t.txlen
              creg :=
                if c then computeCrc (be s.word s.bc) s.cw.toNat s.cpoly s.cinit
                else s.creg
              rxf := t.rxf
              rxlen := t.rxlen
              busIn := if s.nobus then s.busIn else s.busIn.drop (s.nf c)
              busLog := if s.nobus then s.busLog else s.busLog ++
                [{ busidx := s.busidx, devidx := s.devidx, ckmode := s.ckmode, ckrate := s.ckrate, out := tx }]
              draws := t.draws })

/-- R161, R15: an accepted READ, carried out whole, is the one step of its rule, with an inbound frame as for WRITE. The
bytes the bus agent has ready and the log of exchanges are the model's own fields (log entries 4, 16). -/
def Obligations.ReadAsOneStep : Prop :=
  ∀ (c v : Bool) (s : State), s.Inv → s.phase = .idle → s.lifecycle = .ready →
    (2 ^ (8 * s.bc) ≤ s.word →
      runWord (encode (.read c v)) s = .next
        { s with
          cmd := encode (.read c v), err := .overflowError, done := false, crcmm := false, mhw := false }) ∧
    (s.word < 2 ^ (8 * s.bc) →
      ∃ (t : State) (tx inb : Frame), runWord (encode (.read c v)) s = .next t ∧
        encodeFrame s.word s.bc c s.cw.toNat s.cpoly s.cinit = some tx ∧
        inb.length = s.nf c ∧
        (s.nobus = true → inb = bufferPrefix s.standin (s.nf c)) ∧
        (s.nobus = false → inb.take s.busIn.length = s.busIn.take (s.nf c)) ∧
        t.txFrame = tx ∧ t.rxFrame = inb ∧ t.txlen = s.nf c ∧ t.rxlen = s.nf c ∧
        t.full = intOf inb ||| intOf tx ∧
        (c = false → t.payload = t.full ∧ t.crcrx = 0 ∧ t.crccalc = 0 ∧ t.crcmm = false ∧
          t.creg = s.creg) ∧
        (c = true →
          let r := crcCheck t.full s.bc s.cw.toNat s.cpoly s.cinit
          t.crcrx = r.crcrx ∧ t.payload = r.payload ∧ t.crccalc = r.recomputed ∧
            t.crcmm = r.mismatch ∧ t.creg = t.crccalc) ∧
        t = { s with
              cmd := encode (.read c v), err := .none, done := true, crcmm := t.crcmm, mhw := s.nobus
              txf := t.txf
              txlen := t.txlen
              creg := t.creg
              rxf := t.rxf
              rxlen := t.rxlen
              full := t.full
              payload := t.payload
              crcrx := t.crcrx
              crccalc := t.crccalc
              busIn := if s.nobus then s.busIn else s.busIn.drop (s.nf c)
              busLog := if s.nobus then s.busLog else s.busLog ++
                [{ busidx := s.busidx, devidx := s.devidx, ckmode := s.ckmode, ckrate := s.ckrate, out := tx }]
              draws := t.draws })

/-- R109, R103 (d): CRCSTART and then CRCBYTE for each byte of any data leave `compute_crc` of the data in `CREG`; only
`CMD` and the status fields change besides. -/
def Obligations.StreamedCrcIsComputeCrc : Prop :=
  ∀ (s : State) (data : Frame), s.Inv → s.phase = .idle → s.lifecycle = .ready →
    ∃ t : State,
      runWords (encode .crcStart :: data.map fun d => encode (.crcByte d)) s = .next t ∧
      t.creg = computeCrc data s.cw.toNat s.cpoly s.cinit ∧
      t = { s with
            cmd := t.cmd, err := .none, done := true, crcmm := false, mhw := false
            creg := t.creg }

/-- R31, R253: from any idle state every command word, legal or not, ends in an idle state after its acceptance and at
most four phase steps. That the bus answers is R253's assumption and the model's (log entry 12). -/
def Obligations.EveryCommandEndsIdle : Prop :=
  ∀ (s : State) (w : Word32), s.phase = .idle →
    ∃ t, runWord w s = .next t ∧ t.phase = .idle

/-- R15, R243: the host's write of a command word and its wait, taken by the machine step by step, end after at most
six steps in the state of level C, with `STATUS` read by the host. The wait as one agenda entry is the model's own (log
entry 19). -/
def Obligations.StepsComposeToLevelC : Prop :=
  ∀ (s t : State) (w : Word32) (rest : List Turn), s.rst = false → s.phase = .idle →
    s.agenda = .hostWrite 0x00 4 w :: .hostWait :: rest →
    runWord w { s with agenda := .hostWait :: rest } = .next t →
    ∃ n, n ≤ 6 ∧ Host.Core.run core n s = .next { t with agenda := rest, readData := t.status }

/-- R183: in FAILED every accepted legal command raises BadState, an illegal word IllegalCommand (R209), and nothing but
`CMD`, `ERR` and the cleared flags changes. -/
def Obligations.FailedDoesNoWork : Prop :=
  ∀ (s : State) (w : Word32), s.phase = .idle → s.lifecycle = .failed →
    runWord w s = .next
      { s with
        cmd := w
        err := if wordWellFormed w then .badState else .illegalCommand
        done := false
        crcmm := false
        mhw := false }

/-! ### Invariants and whole-machine rules -/

/-- R6, R7, R8: the invariant holds at reset of a block of any legal sizes and either engine; `State.reset` is the one of
the reference instance, `NB_MAX = 8`, `CW_MAX = 64`, `NF_MAX = 16`. The clause on `CREG` before READY rests on the model's
reset value 0 (log entry 3). -/
def Obligations.ResetMeetsInvariant : Prop :=
  (∀ (z : Sizes) (table : Bool), 1 ≤ z.nbMax → 32 ≤ z.cwMax →
    (State.resetOf z table).Inv ∧ (State.resetOf z table).sizes = z ∧
      (State.resetOf z table).ctab.isSome = table ∧
      z.nfMax = z.nbMax + (z.cwMax + 7) / 8) ∧
  State.reset = State.resetOf { nbMax := 8, cwMax := 64 } true ∧ State.reset.sizes.nfMax = 16

/-- Every step from any state that meets the invariant leads to a state that meets it, and no step from any state changes
the sizes of the block, or gives it a table or takes it away (R48: parameters, no state of the block). The clause on `CREG`
before READY rests on the model's reset value 0 (log entry 3). -/
def Obligations.InvariantKeptByEveryStep : Prop :=
  (∀ s t : State, step s = .next t → t.sizes = s.sizes ∧ t.ctab.isSome = s.ctab.isSome) ∧
  ∀ s t : State, s.Inv → step s = .next t → t.Inv

/-- R200, R66: a state that meets the invariant, whose next turn is no undefined access, has a next state: there is no
other way to stop. -/
def Obligations.DefinedTurnsNeverStop : Prop :=
  ∀ s : State, s.Inv → (∀ u rest, s.agenda = u :: rest → Turn.defined u = true) → ∃ t, step s = .next t

/-- R31: the step of a command moves `PHASE` only along the moves listed for it; ENCODE ends a command exactly when the
word does not fit or the command is ENCODE or GENCRC. -/
def Obligations.PhaseMovesAsListed : Prop :=
  ∀ (i : Instr) (s t : State), exec i s = .next t →
    phaseMove i s.phase t.phase = true ∧
    (s.phase = .idle → (t.phase = .encode ↔ runsThrough i .encode = true ∧ s.lifecycle = .ready)) ∧
    (s.phase = .encode →
      (t.phase = .idle ↔
        2 ^ (8 * s.bc) ≤ s.word ∨ i = .genCrc ∨ i = .encode true ∨ i = .encode false))

/-- R182: outside UNCONFIGURED no step but one of the reset input changes a configuration field or the lifecycle, and a
host write to a configuration offset changes nothing and raises nothing; in UNCONFIGURED the last value written
counts. -/
def Obligations.ConfigurationIsLocked : Prop :=
  (∀ s t : State, step s = .next t → s.lifecycle ≠ .unconfigured →
    (∀ level rest, s.agenda ≠ .rst level :: rest) →
    t.busidx = s.busidx ∧ t.devidx = s.devidx ∧ t.ckmode = s.ckmode ∧ t.nobus = s.nobus ∧ t.ckrate = s.ckrate ∧
      t.wlen = s.wlen ∧ t.cw = s.cw ∧ t.cpoly = s.cpoly ∧ t.cinit = s.cinit ∧ t.lifecycle = s.lifecycle) ∧
  (∀ (s : State) (addr : Nat) (v : Word32) (rest : List Turn),
    s.lifecycle ≠ .unconfigured → s.rst = false → s.agenda = .hostWrite addr 4 v :: rest →
    0x10 ≤ addr → addr ≤ 0x2C → addr % 4 = 0 → step s = .next { s with agenda := rest }) ∧
  (∀ (s : State) (addr : Nat) (v : Word32) (rest : List Turn),
    s.phase = .idle → s.rst = false → s.agenda = .hostWrite addr 4 v :: rest →
    0x10 ≤ addr → addr ≤ 0x2C → addr % 4 = 0 → step s = .next (writeAt addr v { s with agenda := rest })) ∧
  ∀ (s : State) (addr : Nat) (v v' : Word32), 0x10 ≤ addr → addr ≤ 0x2C →
    writeAt addr v' (writeAt addr v s) = writeAt addr v' s

/-- R38, R250: no step changes `WORD` but a host write to one of its four offsets while idle, and reset. -/
def Obligations.WordChangesOnlyByHost : Prop :=
  ∀ s t : State, step s = .next t → (∀ level rest, s.agenda ≠ .rst level :: rest) → t.word ≠ s.word →
    s.phase = .idle ∧ ∃ addr v rest, s.agenda = .hostWrite addr 4 v :: rest ∧ 0x50 ≤ addr ∧ addr ≤ 0x5C

/-- R50: which steps may change each result register, each flag, the lifecycle, the table and the stand-in bytes, reset
apart. R34 to R37, R81, R210: `DONE` and `ERR` change only at acceptance and in the last step of a command, `ERR` in a
phase only to OverflowError; `CRCMM` and `MHW` are set only by CHECK and by EXCHANGE with `NOBUS = 1`; acceptance leaves
both at 0, and `DONE` at 1 only with `ERR` 0; from a state that meets the invariant a flag or `ERR` is cleared only at
acceptance. -/
def Obligations.RegistersHaveTheirWriters : Prop :=
  ∀ s t : State, step s = .next t → (∀ level rest, s.agenda ≠ .rst level :: rest) →
    (t.txf ≠ s.txf ∨ t.txlen ≠ s.txlen → s.phase = .encode) ∧
    (t.rxf ≠ s.rxf ∨ t.rxlen ≠ s.rxlen → s.phase = .exchange) ∧
    (t.full ≠ s.full → s.phase = .reassemble) ∧
    (t.payload ≠ s.payload ∨ t.crcrx ≠ s.crcrx ∨ t.crccalc ≠ s.crccalc →
      s.phase = .reassemble ∨ s.phase = .check) ∧
    (t.creg ≠ s.creg → s.phase = .encode ∨ s.phase = .check ∨ (s.phase = .idle ∧ s.lifecycle = .ready)) ∧
    (t.crcmm = true ∧ s.crcmm = false → s.phase = .check) ∧
    (t.mhw = true ∧ s.mhw = false → s.phase = .exchange ∧ s.nobus = true) ∧
    (t.lifecycle ≠ s.lifecycle ∨ t.ctab ≠ s.ctab → s.phase = .idle ∧ s.lifecycle = .unconfigured) ∧
    (t.standin ≠ s.standin → s.phase = .idle) ∧
    (t.cmd ≠ s.cmd → s.phase = .idle ∧ ∃ rest, s.agenda = .hostWrite 0x00 4 t.cmd :: rest) ∧
    (t.done ≠ s.done → s.accepts ∨ (s.phase ≠ .idle ∧ t.phase = .idle)) ∧
    (t.done = true ∧ s.done = false → t.phase = .idle ∧ (t.err = s.err ∨ t.err = .none)) ∧
    (t.err ≠ s.err →
      (s.accepts ∧ (t.err = .none ∨ t.err = .illegalCommand ∨ t.err = .badState ∨
        (t.err = .configurationError ∧ s.lifecycle = .unconfigured ∧ t.lifecycle = .failed))) ∨
      (s.phase = .encode ∧ t.err = .overflowError ∧ t.done = false ∧ t.phase = .idle)) ∧
    (s.crcmm = true ∧ t.crcmm = false → s.accepts ∨ s.phase = .check) ∧
    (s.mhw = true ∧ t.mhw = false → s.accepts) ∧
    (s.accepts → t.crcmm = false ∧ t.mhw = false ∧ (t.done = true → t.err = .none)) ∧
    (s.Inv →
      (s.done = true ∧ t.done = false) ∨ (s.err ≠ .none ∧ t.err = .none) ∨ (s.crcmm = true ∧ t.crcmm = false) ∨
        (s.mhw = true ∧ t.mhw = false) →
      s.accepts)

/-- R70: an exchange is made only in phase EXCHANGE with `NOBUS = 0`, once, with the outbound frame in index order, and
no step but that one gives the bus anything, reset apart. The log of exchanges is the model's own field (log entry 16).
-/
def Obligations.OneExchangePerTransaction : Prop :=
  ∀ s t : State, step s = .next t → (∀ level rest, s.agenda ≠ .rst level :: rest) →
    t.busLog = s.busLog ∨
    (s.phase = .exchange ∧ s.nobus = false ∧ t.rxlen = s.txlen ∧
      t.busLog = s.busLog ++
        [{ busidx := s.busidx, devidx := s.devidx, ckmode := s.ckmode, ckrate := s.ckrate,
           out := bufferPrefix s.txf s.txlen }])

/-- R70 (b), (c): with `NOBUS = 0` every frame of the outbound length can be the inbound frame, whatever was sent.
The bytes the bus agent has ready are the model's own field (log entry 4). -/
def Obligations.AnyBusAnswerIsPossible : Prop :=
  ∀ (c v : Bool) (s : State) (inb : Frame), s.phase = .exchange → s.nobus = false → s.txlen ≤ s.sizes.nfMax →
    inb.length = s.txlen →
    ∃ t w, exec (.write c v) { s with busIn := inb } = .next t ∧ t.rxFrame = inb ∧
      exec (.read c v) { s with busIn := inb } = .next w ∧ w.rxFrame = inb

/-- R71: with `NOBUS = 1` the inbound frame is the stand-in bytes, `MHW` is set, nothing is exchanged, and the result
depends on no bus answer; with the reset value of `STANDIN` the inbound frame is zero bytes. -/
def Obligations.StandInReplacesTheBus : Prop :=
  ∀ (c v : Bool) (s : State), s.phase = .exchange → s.nobus = true →
    s.txlen ≤ s.sizes.nfMax → s.standin.length = s.sizes.nfMax →
    ∃ t w, exec (.write c v) s = .next t ∧ exec (.read c v) s = .next w ∧
      t.rxFrame = bufferPrefix s.standin s.txlen ∧ w.rxFrame = t.rxFrame ∧
      t.mhw = true ∧ w.mhw = true ∧ t.busLog = s.busLog ∧ w.busLog = s.busLog ∧
      t.busIn = s.busIn ∧ w.busIn = s.busIn ∧
      (s.standin = List.replicate s.sizes.nfMax 0 → t.rxFrame = List.replicate s.txlen 0)

/-! ### The register space (20_memory.md) and the host -/

/-- R62: a wide value is the sum of its limbs, limb 0 least significant, and byte `k` of a buffer register is byte
`4j + k` of the buffer; a lane beyond the buffer reads 0, which no reference instance has (log entry 28). -/
def Obligations.LanesAndLimbs : Prop :=
  (∀ x n : Nat, x < 2 ^ (32 * n) → x = ∑ j ∈ Finset.range n, (limb x j).toNat * 2 ^ (32 * j)) ∧
  ∀ (b : Buffer) (j : Nat) (k : Fin 4),
    (bufferLimb b j).extractLsb' (8 * k.val) 8 = (b[4 * j + k.val]?).getD 0

/-- R33: `STATUS` bit by bit, with the codes of `LIFECYCLE` (R30), `PHASE` (R31) and `ERR` (R201) as numbers. -/
def Obligations.StatusIsAView : Prop :=
  ∀ s : State,
    s.status.getLsbD 0 = decide (s.phase ≠ .idle) ∧
    s.status.getLsbD 1 = s.done ∧
    s.status.extractLsb' 2 2 = (match s.lifecycle with
      | .unconfigured => 0
      | .ready => 1
      | .failed => 2) ∧
    s.status.extractLsb' 4 3 = (match s.phase with
      | .idle => 0
      | .encode => 1
      | .exchange => 2
      | .reassemble => 3
      | .check => 4) ∧
    s.status.getLsbD 7 = false ∧
    s.status.extractLsb' 8 4 = (match s.err with
      | .none => 0
      | .overflowError => 2
      | .configurationError => 3
      | .illegalCommand => 4
      | .badState => 5) ∧
    s.status.getLsbD 12 = s.crcmm ∧
    s.status.getLsbD 13 = s.mhw ∧
    s.status.extractLsb' 14 18 = 0

/-- R63, R244: a defined read changes nothing but the value returned (and the model's count of draws); it returns the
register's current value while idle, and of `CMD` and `STATUS` always; a reserved offset reads 0 while idle. R65: the
current value at every offset of the map, by limb, by byte lane and by field, reserved bits 0; a lane beyond `NF_MAX`, which
the reference instance does not have, reads 0 (log entry 28). The value returned and the
count of draws are the model's own fields (log entries 6, 15). -/
def Obligations.ReadsChangeNothing : Prop :=
  (∀ s : State,
    s.valueAt 0x00 = s.cmd ∧ s.valueAt 0x04 = s.status ∧
    s.valueAt 0x08 = BitVec.ofNat 32 s.txlen ∧ s.valueAt 0x0C = BitVec.ofNat 32 s.rxlen ∧
    ((s.valueAt 0x10).extractLsb' 0 8 = s.busidx ∧ (s.valueAt 0x10).extractLsb' 8 8 = s.devidx ∧
      (s.valueAt 0x10).extractLsb' 16 2 = s.ckmode ∧ (s.valueAt 0x10).extractLsb' 18 13 = 0 ∧
      (s.valueAt 0x10).getLsbD 31 = s.nobus) ∧
    s.valueAt 0x14 = s.ckrate ∧
    ((s.valueAt 0x18).extractLsb' 0 16 = s.wlen ∧ (s.valueAt 0x18).extractLsb' 16 8 = 8 ∧
      (s.valueAt 0x18).extractLsb' 24 8 = 0) ∧
    (s.valueAt 0x1C).toNat = s.cw.toNat ∧
    (∀ j : Fin 2,
      s.valueAt (0x20 + 4 * j.val) = BitVec.ofNat 32 (s.cpoly >>> (32 * j.val)) ∧
      s.valueAt (0x28 + 4 * j.val) = BitVec.ofNat 32 (s.cinit >>> (32 * j.val)) ∧
      s.valueAt (0x30 + 4 * j.val) = BitVec.ofNat 32 (s.creg >>> (32 * j.val)) ∧
      s.valueAt (0x38 + 4 * j.val) = BitVec.ofNat 32 (s.crcrx >>> (32 * j.val)) ∧
      s.valueAt (0x40 + 4 * j.val) = BitVec.ofNat 32 (s.crccalc >>> (32 * j.val)) ∧
      s.valueAt (0x48 + 4 * j.val) = BitVec.ofNat 32 (s.payload >>> (32 * j.val))) ∧
    (∀ j : Fin 4,
      s.valueAt (0x50 + 4 * j.val) = BitVec.ofNat 32 (s.word >>> (32 * j.val)) ∧
      s.valueAt (0x60 + 4 * j.val) = BitVec.ofNat 32 (s.full >>> (32 * j.val))) ∧
    ∀ i : Fin 16,
      (s.valueAt (0x80 + 4 * (i.val / 4))).extractLsb' (8 * (i.val % 4)) 8 = (s.txf[i.val]?).getD 0 ∧
      (s.valueAt (0x90 + 4 * (i.val / 4))).extractLsb' (8 * (i.val % 4)) 8 = (s.rxf[i.val]?).getD 0 ∧
      (s.valueAt (0xA0 + 4 * (i.val / 4))).extractLsb' (8 * (i.val % 4)) 8 = (s.standin[i.val]?).getD 0) ∧
  ∀ (s : State) (addr : Nat) (rest : List Turn), s.rst = false → s.agenda = .hostRead addr 4 :: rest →
    addr % 4 = 0 → addr < 0x100 →
    ∃ t, step s = .next t ∧ t.toBlock = s.toBlock ∧ t.agenda = rest ∧ t.busIn = s.busIn ∧ t.busLog = s.busLog ∧
      t.rst = s.rst ∧
      (addr = 0x00 → t.readData = s.cmd) ∧ (addr = 0x04 → t.readData = s.status) ∧
      (s.phase = .idle → t.readData = s.valueAt addr ∧ t.draws = s.draws) ∧
      (s.phase = .idle → 0x70 ≤ addr → addr ≤ 0x7C → t.readData = 0) ∧
      (s.phase = .idle → 0xB0 ≤ addr → t.readData = 0)

/-- R64, R65: an idle-time write at any offset but `CMD` is a register write; what is written to a writable register is
read back there, reserved and read-only bits dropped, and every other offset reads as before; a read-only or reserved
offset ignores it. In the reference instance a limb and a byte register keep all 32 bits; in a block of other sizes the bits
beyond the register's width are dropped, which is the model's reading of a map drawn for the reference (log entry 28). -/
def Obligations.WritesReadBack : Prop :=
  (∀ (s : State) (addr : Nat) (v : Word32) (rest : List Turn), s.rst = false → s.phase = .idle →
    s.agenda = .hostWrite addr 4 v :: rest → addr % 4 = 0 → 0x04 ≤ addr → addr < 0x100 →
    step s = .next (writeAt addr v { s with agenda := rest })) ∧
  (∀ (s : State) (v : Word32) (addr : Nat),
    0x04 ≤ addr ∧ addr ≤ 0x0C ∨ 0x30 ≤ addr ∧ addr ≤ 0x4C ∨ 0x60 ≤ addr ∧ addr ≤ 0x9C ∨ 0xB0 ≤ addr →
    writeAt addr v s = s) ∧
  (∀ (s : State) (v : Word32) (addr other : Nat),
    (0x50 ≤ addr ∧ addr ≤ 0x5C ∨ 0xA0 ≤ addr ∧ addr ≤ 0xAC) → addr % 4 = 0 → other ≠ addr →
    (writeAt addr v s).valueAt other = s.valueAt other) ∧
  (∀ (s : State) (v : Word32) (j : Fin 4),
    (writeAt (0x50 + 4 * j.val) v s).valueAt (0x50 + 4 * j.val)
      = BitVec.ofNat 32 (v.toNat % 2 ^ (8 * s.sizes.nfMax - 32 * j.val)) ∧
    ∀ k : Fin 4, ((writeAt (0xA0 + 4 * j.val) v s).valueAt (0xA0 + 4 * j.val)).extractLsb' (8 * k.val) 8
      = if 4 * j.val + k.val < s.standin.length then v.extractLsb' (8 * k.val) 8 else 0) ∧
  (∀ (s : State) (v : Word32) (j : Fin 2), s.lifecycle = .unconfigured →
    (writeAt (0x20 + 4 * j.val) v s).valueAt (0x20 + 4 * j.val)
      = BitVec.ofNat 32 (v.toNat % 2 ^ (s.sizes.cwMax - 32 * j.val)) ∧
    (writeAt (0x28 + 4 * j.val) v s).valueAt (0x28 + 4 * j.val)
      = BitVec.ofNat 32 (v.toNat % 2 ^ (s.sizes.cwMax - 32 * j.val))) ∧
  (∀ (s : State) (v : Word32), s.sizes.nbMax = 8 → s.sizes.cwMax = 64 → s.standin.length = 16 →
    (∀ addr, (0x50 ≤ addr ∧ addr ≤ 0x5C ∨ 0xA0 ≤ addr ∧ addr ≤ 0xAC) → addr % 4 = 0 →
      (writeAt addr v s).valueAt addr = v) ∧
    (∀ addr, 0x20 ≤ addr → addr ≤ 0x2C → addr % 4 = 0 → s.lifecycle = .unconfigured →
      (writeAt addr v s).valueAt addr = v)) ∧
  ∀ (s : State) (v : Word32), s.lifecycle = .unconfigured →
    (writeAt 0x10 v s).valueAt 0x10 = v &&& 0x8003FFFF#32 ∧
    (writeAt 0x14 v s).valueAt 0x14 = v ∧
    (writeAt 0x18 v s).valueAt 0x18 = (v &&& 0x0000FFFF#32) ||| 0x00080000#32 ∧
    (writeAt 0x1C v s).valueAt 0x1C = v &&& 0x000000FF#32 ∧
    ∀ addr other, 0x10 ≤ addr → addr ≤ 0x2C → addr % 4 = 0 → other ≠ addr →
      (writeAt addr v s).valueAt other = s.valueAt other

/-- R64 (a), R242: a host write while a command runs changes nothing, whatever the offset, `CMD` included. -/
def Obligations.BusyWritesAreDropped : Prop :=
  ∀ (s : State) (addr : Nat) (v : Word32) (rest : List Turn), s.rst = false → s.phase ≠ .idle →
    s.agenda = .hostWrite addr 4 v :: rest → addr % 4 = 0 → addr < 0x100 →
    step s = .next { s with agenda := rest }

/-- 93_implementation_defined.md U4, R66: an access that is not an aligned 32-bit access inside the register space is
refused, with no effect. -/
def Obligations.OtherAccessesAreRefused : Prop :=
  ∀ (s : State) (addr bytes : Nat) (v : Word32) (rest : List Turn), s.rst = false →
    bytes ≠ 4 ∨ addr % 4 ≠ 0 ∨ 0x100 ≤ addr →
    (s.agenda = .hostRead addr bytes :: rest → step s = .refused .undefinedAccess) ∧
    (s.agenda = .hostWrite addr bytes v :: rest → step s = .refused .undefinedAccess)

/-- R243, R245: while a command runs, any number of the host's defined reads and writes leave the block, the bus and the
reset input as they were: only the sequencer moves a command. -/
def Obligations.HostCannotDisturbCommand : Prop :=
  ∀ (accesses rest : List Turn) (s : State), s.rst = false → s.phase ≠ .idle →
    (∀ u ∈ accesses, (∃ addr, u = .hostRead addr 4 ∧ addr % 4 = 0 ∧ addr < 0x100) ∨
      ∃ addr v, u = .hostWrite addr 4 v ∧ addr % 4 = 0 ∧ addr < 0x100) →
    s.agenda = accesses ++ rest →
    ∃ t, Host.Core.run core accesses.length s = .next t ∧
      t.toBlock = s.toBlock ∧ t.agenda = rest ∧ t.busIn = s.busIn ∧ t.busLog = s.busLog ∧ t.rst = s.rst

/-- R230, R231: while the reset input is asserted the block does nothing and accepts no access; its release, and its
assertion in the middle of a command, leave the values R49 gives; `State.reset` has them too, as the host reads them
(95_test_vectors.md V91). That the block holds them already when the input is asserted (the rules give them after its
release), and that an access made meanwhile is dropped, are the model's reading (log entry 11); that a host wait met meanwhile
ends at once, with no read of `STATUS`, is the model's choice (log entry 29). -/
def Obligations.ResetRule : Prop :=
  (State.reset.lifecycle = .unconfigured ∧ State.reset.phase = .idle ∧
    (∀ addr ∈ [0x00, 0x04, 0x08, 0x0C, 0x10, 0x14, 0x1C, 0x20, 0x24, 0x28, 0x2C, 0xA0, 0xA4, 0xA8, 0xAC],
      State.reset.valueAt addr = 0) ∧
    State.reset.valueAt 0x18 = 0x00080000#32) ∧
  (∀ (s : State) (u : Turn) (rest : List Turn), s.rst = true → s.agenda = u :: rest → u ≠ .rst false →
    step s = .next { s with agenda := rest }) ∧
  ∀ (s : State) (level : Bool) (rest : List Turn), s.agenda = .rst level :: rest → s.rst = !level →
    ∃ t, step s = .next t ∧ t.rst = level ∧ t.agenda = rest ∧
      t.lifecycle = .unconfigured ∧ t.phase = .idle ∧ t.cmd = 0 ∧ t.err = .none ∧
      t.done = false ∧ t.crcmm = false ∧ t.mhw = false ∧
      t.busidx = 0 ∧ t.devidx = 0 ∧ t.ckmode = 0 ∧ t.nobus = false ∧ t.ckrate = 0 ∧
      t.wlen = 0 ∧ t.cw = 0 ∧ t.cpoly = 0 ∧ t.cinit = 0 ∧ t.valueAt 0x18 = 0x00080000#32 ∧
      t.txlen = 0 ∧ t.rxlen = 0 ∧ t.standin = List.replicate s.sizes.nfMax 0

/-- R140, R141: for an operand that is no numeral, or whose word `WORD` cannot hold, the host reports the error itself
and makes no access; otherwise it presents exactly the parsed word. R186 to R188: `spi write`, `spi read` and
`spi gen-crc` then send the command word `0x03`, `0x04` or `0x05`, with `0x10` for `--crc` and `0x20` for `--verbose` in
the first two, and wait. R189: the benchmark is `n` pairs of such a write and a read of the same word, one after another;
that an error of one of them does not stop the loop early is the model's choice (log entry 26).
R186, R62: the four writes with which the host presents a word leave exactly that word in `WORD`, and nothing else
changes, in the reference instance and in every block whose `WORD` the map's four limbs hold (log entry 28). The wait as one
agenda entry is the model's own (log entry 19). -/
def Obligations.HostPresentsItsWord : Prop :=
  (∀ (z : Sizes) (raw : List Char) (cmd : Word32),
    (parseInput raw = none → toolAccesses z raw cmd = .error .formatError) ∧
    (∀ w, parseInput raw = some w → 2 ^ (8 * z.nfMax) ≤ w → toolAccesses z raw cmd = .error .overflowError) ∧
    (∀ w, parseInput raw = some w → w < 2 ^ (8 * z.nfMax) →
      toolAccesses z raw cmd = .ok (wordWrites w ++ [.hostWrite 0x00 4 cmd, .hostWait]))) ∧
  (∀ (z : Sizes) (raw : List Char) (crc verbose : Bool),
    let flags := (if crc then 0x10 else 0) + (if verbose then 0x20 else 0)
    spiWrite z raw crc verbose = toolAccesses z raw (BitVec.ofNat 32 (0x03 + flags)) ∧
    spiRead z raw crc verbose = toolAccesses z raw (BitVec.ofNat 32 (0x04 + flags)) ∧
    spiGenCrc z raw = toolAccesses z raw 0x05#32 ∧
    (∀ (n : Nat) (e : ToolError), toolWord z raw = .error e → benchmarkSpi z n raw crc verbose = .error e) ∧
    ∀ w, toolWord z raw = .ok w →
      benchmarkSpi z 0 raw crc verbose = .ok [] ∧
      ∀ (n : Nat) (accesses : List Turn), benchmarkSpi z n raw crc verbose = .ok accesses →
        benchmarkSpi z (n + 1) raw crc verbose = .ok
          ((wordWrites w ++ [.hostWrite 0x00 4 (BitVec.ofNat 32 (0x03 + flags)), .hostWait]) ++
            (wordWrites w ++ [.hostWrite 0x00 4 (BitVec.ofNat 32 (0x04 + flags)), .hostWait]) ++ accesses)) ∧
  ∀ (s : State) (w : Nat) (rest : List Turn), s.rst = false → s.phase = .idle →
    s.sizes.nfMax ≤ 16 → s.word < 2 ^ (8 * s.sizes.nfMax) → w < 2 ^ (8 * s.sizes.nfMax) →
    s.agenda = wordWrites w ++ rest →
    Host.Core.run core 4 s = .next { s with agenda := rest, word := w }

/-- R184, R232: start-up on a block that is not configured leaves the host's configuration in the registers and the
block READY when it is valid and FAILED when not, with `STATUS` read by the host. The wait as one agenda entry is the
model's own (log entry 19). R185, R233: the start of a process, after a shut-down, does the same from every state,
configured, failed, running a command or held in reset, since it begins with a reset (log entry 27). The polynomial and
the initial value are ones the block's registers and the map's two limbs hold; every value a configuration of the reference
instance can have is one (log entry 28). -/
def Obligations.StartUpConfigures : Prop :=
  (∀ (s : State) (g : ToolConfig) (rest : List Turn), s.rst = false → s.phase = .idle →
    s.cpoly < 2 ^ 64 → s.cinit < 2 ^ 64 →
    g.cpoly < 2 ^ min 64 s.sizes.cwMax → g.cinit < 2 ^ min 64 s.sizes.cwMax →
    s.lifecycle = .unconfigured → s.agenda = startUp g ++ rest →
    ∃ t, Host.Core.run core 10 s = .next t ∧
      t.busidx = g.busidx ∧ t.devidx = g.devidx ∧ t.ckmode = g.ckmode ∧ t.nobus = g.nobus ∧ t.ckrate = g.ckrate ∧
      t.wlen = g.wlen ∧ t.cw = g.cw ∧ t.cpoly = g.cpoly ∧ t.cinit = g.cinit ∧
      t.lifecycle = (if t.validConfig then .ready else .failed) ∧
      t.err = (if t.validConfig then .none else .configurationError) ∧
      t.done = t.validConfig ∧ t.readData = t.status ∧ t.agenda = rest) ∧
  ∀ (s : State) (g : ToolConfig) (rest : List Turn), s.agenda = shutDown ++ processStart g ++ rest →
    g.cpoly < 2 ^ min 64 s.sizes.cwMax → g.cinit < 2 ^ min 64 s.sizes.cwMax →
    ∃ t, Host.Core.run core 12 s = .next t ∧ t.rst = false ∧ t.phase = .idle ∧
      t.busidx = g.busidx ∧ t.devidx = g.devidx ∧ t.ckmode = g.ckmode ∧ t.nobus = g.nobus ∧ t.ckrate = g.ckrate ∧
      t.wlen = g.wlen ∧ t.cw = g.cw ∧ t.cpoly = g.cpoly ∧ t.cinit = g.cinit ∧
      t.lifecycle = (if t.validConfig then .ready else .failed) ∧
      t.err = (if t.validConfig then .none else .configurationError) ∧
      t.done = t.validConfig ∧ t.crcmm = false ∧ t.mhw = false ∧ t.txlen = 0 ∧ t.rxlen = 0 ∧
      t.standin = List.replicate s.sizes.nfMax 0 ∧ t.readData = t.status ∧ t.agenda = rest

/-- R140: the parser takes one or more hexadecimal digits after `0x` or `0X`, else one or more decimal digits, and
nothing else; the digits are `0` to `9`, and `a` to `f` and `A` to `F` in a hexadecimal numeral, each with its value; the
value is the base-16 or base-10 value, digit by digit; leading zeros keep it. -/
def Obligations.ParserTakesNumeralsOnly : Prop :=
  (∀ (ch : Char) (k : Nat), decDigit ch = some k ↔
    (ch, k) ∈ [('0', 0), ('1', 1), ('2', 2), ('3', 3), ('4', 4), ('5', 5), ('6', 6), ('7', 7), ('8', 8), ('9', 9)]) ∧
  (∀ (ch : Char) (k : Nat), hexDigit ch = some k ↔
    decDigit ch = some k ∨
    (ch, k) ∈ [('a', 10), ('b', 11), ('c', 12), ('d', 13), ('e', 14), ('f', 15)] ∨
    (ch, k) ∈ [('A', 10), ('B', 11), ('C', 12), ('D', 13), ('E', 14), ('F', 15)]) ∧
  (∀ raw : List Char, (parseInput raw).isSome = true ↔
    ((raw ≠ [] ∧ ∀ ch ∈ raw, (decDigit ch).isSome = true) ∨
      ∃ x rest, raw = '0' :: x :: rest ∧ (x = 'x' ∨ x = 'X') ∧ rest ≠ [] ∧
        ∀ ch ∈ rest, (hexDigit ch).isSome = true)) ∧
  (∀ ch, parseInput [ch] = decDigit ch) ∧
  (∀ (raw : List Char) (ch : Char) (n k : Nat), (∀ d ∈ raw, (decDigit d).isSome = true) →
    parseInput raw = some n → decDigit ch = some k → parseInput (raw ++ [ch]) = some (n * 10 + k)) ∧
  (∀ (x ch : Char), x = 'x' ∨ x = 'X' → parseInput ['0', x, ch] = hexDigit ch) ∧
  (∀ (rest : List Char) (x ch : Char) (n k : Nat), x = 'x' ∨ x = 'X' →
    parseInput ('0' :: x :: rest) = some n → hexDigit ch = some k →
    parseInput ('0' :: x :: (rest ++ [ch])) = some (n * 16 + k)) ∧
  (∀ raw : List Char, raw ≠ [] → (∀ ch ∈ raw, (decDigit ch).isSome = true) →
    parseInput ('0' :: raw) = parseInput raw) ∧
  parseInput ['4', '3', '9', '8', '1'] = some 43981 ∧
  parseInput ['0', 'x', 'A', 'B', 'C', 'D'] = some 43981 ∧
  parseInput ['0', 'X', 'a', 'b', 'c', 'd'] = some 43981

/-- R187, R162, R190: after a READ without an error the host prints `FULL`, as far as the map's four limbs hold it, which is
always so in the reference instance (log entry 28), mismatch or not, and exits with 0. R190: the
exit code of a process is 0 on success and not 0 on an error, whether a command ended with it or the host refused the
operand, for start-up, `spi write`, `spi read`, `spi gen-crc`; a mismatch and missing hardware do not change it; that an error
includes the errors 4 and 5 is the model's (log entry 18). R189, R190: the exit code of a benchmark process is 0 when no
command of its pairs failed, as with a word that fits and any number of pairs, and not 0 when one did, as with a word that
does not fit and at least one pair; which error the report names is the model's (log entry 26). -/
def Obligations.HostPrintsFull : Prop :=
  (∀ s : State,
    (s.err = .none →
      (s.full < 2 ^ 128 → (spiReadReport s).printed = some s.full) ∧ (spiReadReport s).mismatch = s.crcmm) ∧
    (s.err ≠ .none → (spiReadReport s).printed = none) ∧
    ∀ r ∈ [startUpReport s, spiWriteReport s, spiReadReport s, spiGenCrcReport s],
      (r.exitCode = 0 ↔ s.err = .none)) ∧
  (∀ (n : Nat) (raw : List Char) (crc verbose : Bool) (s : State) (e : ToolError), toolWord s.sizes raw = .error e →
    (failedReport e).exitCode ≠ 0 ∧ benchmarkOutcome n raw crc verbose s = failedReport e) ∧
  (∀ states : List State, (benchmarkReport states).exitCode = 0 ↔ ∀ t ∈ states, t.err = .none) ∧
  ∀ (n w : Nat) (raw : List Char) (crc verbose : Bool) (s : State), s.Inv → s.phase = .idle →
    toolWord s.sizes raw = .ok w →
    (commandStates (benchmarkCommands n crc verbose) { s with word := w }).length = 2 * n ∧
    (s.lifecycle = .ready → w < 2 ^ (8 * s.bc) → (benchmarkOutcome n raw crc verbose s).exitCode = 0) ∧
    (s.lifecycle = .ready → 2 ^ (8 * s.bc) ≤ w → 0 < n →
      (benchmarkOutcome n raw crc verbose s).error = some .overflowError ∧
      (benchmarkOutcome n raw crc verbose s).exitCode ≠ 0) ∧
    (s.lifecycle ≠ .ready → 0 < n → (benchmarkOutcome n raw crc verbose s).exitCode ≠ 0)
end

