-- ==== Sys2Proof/Laws/State.lean ====
section
/-! SUPPORT. One lemma per field per named update of the state, each true by computation, so that no proof unfolds a record
update. -/

namespace Sys2Proof.Machine

@[simp] theorem accept_busidx (w : Word32) (s : State) : (accept w s).busidx = s.busidx := rfl
@[simp] theorem accept_devidx (w : Word32) (s : State) : (accept w s).devidx = s.devidx := rfl
@[simp] theorem accept_ckmode (w : Word32) (s : State) : (accept w s).ckmode = s.ckmode := rfl
@[simp] theorem accept_nobus (w : Word32) (s : State) : (accept w s).nobus = s.nobus := rfl
@[simp] theorem accept_ckrate (w : Word32) (s : State) : (accept w s).ckrate = s.ckrate := rfl
@[simp] theorem accept_wlen (w : Word32) (s : State) : (accept w s).wlen = s.wlen := rfl
@[simp] theorem accept_cw (w : Word32) (s : State) : (accept w s).cw = s.cw := rfl
@[simp] theorem accept_cpoly (w : Word32) (s : State) : (accept w s).cpoly = s.cpoly := rfl
@[simp] theorem accept_cinit (w : Word32) (s : State) : (accept w s).cinit = s.cinit := rfl
@[simp] theorem accept_lifecycle (w : Word32) (s : State) : (accept w s).lifecycle = s.lifecycle := rfl
@[simp] theorem accept_phase (w : Word32) (s : State) : (accept w s).phase = s.phase := rfl
@[simp] theorem accept_cmd (w : Word32) (s : State) : (accept w s).cmd = w := rfl
@[simp] theorem accept_err (w : Word32) (s : State) : (accept w s).err = .none := rfl
@[simp] theorem accept_done (w : Word32) (s : State) : (accept w s).done = false := rfl
@[simp] theorem accept_crcmm (w : Word32) (s : State) : (accept w s).crcmm = false := rfl
@[simp] theorem accept_mhw (w : Word32) (s : State) : (accept w s).mhw = false := rfl
@[simp] theorem accept_word (w : Word32) (s : State) : (accept w s).word = s.word := rfl
@[simp] theorem accept_txf (w : Word32) (s : State) : (accept w s).txf = s.txf := rfl
@[simp] theorem accept_txlen (w : Word32) (s : State) : (accept w s).txlen = s.txlen := rfl
@[simp] theorem accept_rxf (w : Word32) (s : State) : (accept w s).rxf = s.rxf := rfl
@[simp] theorem accept_rxlen (w : Word32) (s : State) : (accept w s).rxlen = s.rxlen := rfl
@[simp] theorem accept_standin (w : Word32) (s : State) : (accept w s).standin = s.standin := rfl
@[simp] theorem accept_full (w : Word32) (s : State) : (accept w s).full = s.full := rfl
@[simp] theorem accept_payload (w : Word32) (s : State) : (accept w s).payload = s.payload := rfl
@[simp] theorem accept_crcrx (w : Word32) (s : State) : (accept w s).crcrx = s.crcrx := rfl
@[simp] theorem accept_crccalc (w : Word32) (s : State) : (accept w s).crccalc = s.crccalc := rfl
@[simp] theorem accept_creg (w : Word32) (s : State) : (accept w s).creg = s.creg := rfl
@[simp] theorem accept_ctab (w : Word32) (s : State) : (accept w s).ctab = s.ctab := rfl
@[simp] theorem accept_sizes (w : Word32) (s : State) : (accept w s).sizes = s.sizes := rfl
@[simp] theorem accept_rst (w : Word32) (s : State) : (accept w s).rst = s.rst := rfl
@[simp] theorem accept_agenda (w : Word32) (s : State) : (accept w s).agenda = s.agenda := rfl
@[simp] theorem accept_readData (w : Word32) (s : State) : (accept w s).readData = s.readData := rfl
@[simp] theorem accept_busIn (w : Word32) (s : State) : (accept w s).busIn = s.busIn := rfl
@[simp] theorem accept_busLog (w : Word32) (s : State) : (accept w s).busLog = s.busLog := rfl
@[simp] theorem accept_draws (w : Word32) (s : State) : (accept w s).draws = s.draws := rfl

@[simp] theorem raise_busidx (e : ErrKind) (s : State) : (raise e s).busidx = s.busidx := rfl
@[simp] theorem raise_devidx (e : ErrKind) (s : State) : (raise e s).devidx = s.devidx := rfl
@[simp] theorem raise_ckmode (e : ErrKind) (s : State) : (raise e s).ckmode = s.ckmode := rfl
@[simp] theorem raise_nobus (e : ErrKind) (s : State) : (raise e s).nobus = s.nobus := rfl
@[simp] theorem raise_ckrate (e : ErrKind) (s : State) : (raise e s).ckrate = s.ckrate := rfl
@[simp] theorem raise_wlen (e : ErrKind) (s : State) : (raise e s).wlen = s.wlen := rfl
@[simp] theorem raise_cw (e : ErrKind) (s : State) : (raise e s).cw = s.cw := rfl
@[simp] theorem raise_cpoly (e : ErrKind) (s : State) : (raise e s).cpoly = s.cpoly := rfl
@[simp] theorem raise_cinit (e : ErrKind) (s : State) : (raise e s).cinit = s.cinit := rfl
@[simp] theorem raise_lifecycle (e : ErrKind) (s : State) : (raise e s).lifecycle = if e = .configurationError then .failed else s.lifecycle := rfl
@[simp] theorem raise_phase (e : ErrKind) (s : State) : (raise e s).phase = .idle := rfl
@[simp] theorem raise_cmd (e : ErrKind) (s : State) : (raise e s).cmd = s.cmd := rfl
@[simp] theorem raise_err (e : ErrKind) (s : State) : (raise e s).err = e := rfl
@[simp] theorem raise_done (e : ErrKind) (s : State) : (raise e s).done = false := rfl
@[simp] theorem raise_crcmm (e : ErrKind) (s : State) : (raise e s).crcmm = s.crcmm := rfl
@[simp] theorem raise_mhw (e : ErrKind) (s : State) : (raise e s).mhw = s.mhw := rfl
@[simp] theorem raise_word (e : ErrKind) (s : State) : (raise e s).word = s.word := rfl
@[simp] theorem raise_txf (e : ErrKind) (s : State) : (raise e s).txf = s.txf := rfl
@[simp] theorem raise_txlen (e : ErrKind) (s : State) : (raise e s).txlen = s.txlen := rfl
@[simp] theorem raise_rxf (e : ErrKind) (s : State) : (raise e s).rxf = s.rxf := rfl
@[simp] theorem raise_rxlen (e : ErrKind) (s : State) : (raise e s).rxlen = s.rxlen := rfl
@[simp] theorem raise_standin (e : ErrKind) (s : State) : (raise e s).standin = s.standin := rfl
@[simp] theorem raise_full (e : ErrKind) (s : State) : (raise e s).full = s.full := rfl
@[simp] theorem raise_payload (e : ErrKind) (s : State) : (raise e s).payload = s.payload := rfl
@[simp] theorem raise_crcrx (e : ErrKind) (s : State) : (raise e s).crcrx = s.crcrx := rfl
@[simp] theorem raise_crccalc (e : ErrKind) (s : State) : (raise e s).crccalc = s.crccalc := rfl
@[simp] theorem raise_creg (e : ErrKind) (s : State) : (raise e s).creg = s.creg := rfl
@[simp] theorem raise_ctab (e : ErrKind) (s : State) : (raise e s).ctab = s.ctab := rfl
@[simp] theorem raise_sizes (e : ErrKind) (s : State) : (raise e s).sizes = s.sizes := rfl
@[simp] theorem raise_rst (e : ErrKind) (s : State) : (raise e s).rst = s.rst := rfl
@[simp] theorem raise_agenda (e : ErrKind) (s : State) : (raise e s).agenda = s.agenda := rfl
@[simp] theorem raise_readData (e : ErrKind) (s : State) : (raise e s).readData = s.readData := rfl
@[simp] theorem raise_busIn (e : ErrKind) (s : State) : (raise e s).busIn = s.busIn := rfl
@[simp] theorem raise_busLog (e : ErrKind) (s : State) : (raise e s).busLog = s.busLog := rfl
@[simp] theorem raise_draws (e : ErrKind) (s : State) : (raise e s).draws = s.draws := rfl

@[simp] theorem finish_busidx (s : State) : (finish s).busidx = s.busidx := rfl
@[simp] theorem finish_devidx (s : State) : (finish s).devidx = s.devidx := rfl
@[simp] theorem finish_ckmode (s : State) : (finish s).ckmode = s.ckmode := rfl
@[simp] theorem finish_nobus (s : State) : (finish s).nobus = s.nobus := rfl
@[simp] theorem finish_ckrate (s : State) : (finish s).ckrate = s.ckrate := rfl
@[simp] theorem finish_wlen (s : State) : (finish s).wlen = s.wlen := rfl
@[simp] theorem finish_cw (s : State) : (finish s).cw = s.cw := rfl
@[simp] theorem finish_cpoly (s : State) : (finish s).cpoly = s.cpoly := rfl
@[simp] theorem finish_cinit (s : State) : (finish s).cinit = s.cinit := rfl
@[simp] theorem finish_lifecycle (s : State) : (finish s).lifecycle = s.lifecycle := rfl
@[simp] theorem finish_phase (s : State) : (finish s).phase = .idle := rfl
@[simp] theorem finish_cmd (s : State) : (finish s).cmd = s.cmd := rfl
@[simp] theorem finish_err (s : State) : (finish s).err = s.err := rfl
@[simp] theorem finish_done (s : State) : (finish s).done = true := rfl
@[simp] theorem finish_crcmm (s : State) : (finish s).crcmm = s.crcmm := rfl
@[simp] theorem finish_mhw (s : State) : (finish s).mhw = s.mhw := rfl
@[simp] theorem finish_word (s : State) : (finish s).word = s.word := rfl
@[simp] theorem finish_txf (s : State) : (finish s).txf = s.txf := rfl
@[simp] theorem finish_txlen (s : State) : (finish s).txlen = s.txlen := rfl
@[simp] theorem finish_rxf (s : State) : (finish s).rxf = s.rxf := rfl
@[simp] theorem finish_rxlen (s : State) : (finish s).rxlen = s.rxlen := rfl
@[simp] theorem finish_standin (s : State) : (finish s).standin = s.standin := rfl
@[simp] theorem finish_full (s : State) : (finish s).full = s.full := rfl
@[simp] theorem finish_payload (s : State) : (finish s).payload = s.payload := rfl
@[simp] theorem finish_crcrx (s : State) : (finish s).crcrx = s.crcrx := rfl
@[simp] theorem finish_crccalc (s : State) : (finish s).crccalc = s.crccalc := rfl
@[simp] theorem finish_creg (s : State) : (finish s).creg = s.creg := rfl
@[simp] theorem finish_ctab (s : State) : (finish s).ctab = s.ctab := rfl
@[simp] theorem finish_sizes (s : State) : (finish s).sizes = s.sizes := rfl
@[simp] theorem finish_rst (s : State) : (finish s).rst = s.rst := rfl
@[simp] theorem finish_agenda (s : State) : (finish s).agenda = s.agenda := rfl
@[simp] theorem finish_readData (s : State) : (finish s).readData = s.readData := rfl
@[simp] theorem finish_busIn (s : State) : (finish s).busIn = s.busIn := rfl
@[simp] theorem finish_busLog (s : State) : (finish s).busLog = s.busLog := rfl
@[simp] theorem finish_draws (s : State) : (finish s).draws = s.draws := rfl

@[simp] theorem enterEncode_busidx (s : State) : (enterEncode s).busidx = s.busidx := rfl
@[simp] theorem enterEncode_devidx (s : State) : (enterEncode s).devidx = s.devidx := rfl
@[simp] theorem enterEncode_ckmode (s : State) : (enterEncode s).ckmode = s.ckmode := rfl
@[simp] theorem enterEncode_nobus (s : State) : (enterEncode s).nobus = s.nobus := rfl
@[simp] theorem enterEncode_ckrate (s : State) : (enterEncode s).ckrate = s.ckrate := rfl
@[simp] theorem enterEncode_wlen (s : State) : (enterEncode s).wlen = s.wlen := rfl
@[simp] theorem enterEncode_cw (s : State) : (enterEncode s).cw = s.cw := rfl
@[simp] theorem enterEncode_cpoly (s : State) : (enterEncode s).cpoly = s.cpoly := rfl
@[simp] theorem enterEncode_cinit (s : State) : (enterEncode s).cinit = s.cinit := rfl
@[simp] theorem enterEncode_lifecycle (s : State) : (enterEncode s).lifecycle = s.lifecycle := rfl
@[simp] theorem enterEncode_phase (s : State) : (enterEncode s).phase = .encode := rfl
@[simp] theorem enterEncode_cmd (s : State) : (enterEncode s).cmd = s.cmd := rfl
@[simp] theorem enterEncode_err (s : State) : (enterEncode s).err = s.err := rfl
@[simp] theorem enterEncode_done (s : State) : (enterEncode s).done = s.done := rfl
@[simp] theorem enterEncode_crcmm (s : State) : (enterEncode s).crcmm = s.crcmm := rfl
@[simp] theorem enterEncode_mhw (s : State) : (enterEncode s).mhw = s.mhw := rfl
@[simp] theorem enterEncode_word (s : State) : (enterEncode s).word = s.word := rfl
@[simp] theorem enterEncode_txf (s : State) : (enterEncode s).txf = s.txf := rfl
@[simp] theorem enterEncode_txlen (s : State) : (enterEncode s).txlen = s.txlen := rfl
@[simp] theorem enterEncode_rxf (s : State) : (enterEncode s).rxf = s.rxf := rfl
@[simp] theorem enterEncode_rxlen (s : State) : (enterEncode s).rxlen = s.rxlen := rfl
@[simp] theorem enterEncode_standin (s : State) : (enterEncode s).standin = s.standin := rfl
@[simp] theorem enterEncode_full (s : State) : (enterEncode s).full = s.full := rfl
@[simp] theorem enterEncode_payload (s : State) : (enterEncode s).payload = s.payload := rfl
@[simp] theorem enterEncode_crcrx (s : State) : (enterEncode s).crcrx = s.crcrx := rfl
@[simp] theorem enterEncode_crccalc (s : State) : (enterEncode s).crccalc = s.crccalc := rfl
@[simp] theorem enterEncode_creg (s : State) : (enterEncode s).creg = s.creg := rfl
@[simp] theorem enterEncode_ctab (s : State) : (enterEncode s).ctab = s.ctab := rfl
@[simp] theorem enterEncode_sizes (s : State) : (enterEncode s).sizes = s.sizes := rfl
@[simp] theorem enterEncode_rst (s : State) : (enterEncode s).rst = s.rst := rfl
@[simp] theorem enterEncode_agenda (s : State) : (enterEncode s).agenda = s.agenda := rfl
@[simp] theorem enterEncode_readData (s : State) : (enterEncode s).readData = s.readData := rfl
@[simp] theorem enterEncode_busIn (s : State) : (enterEncode s).busIn = s.busIn := rfl
@[simp] theorem enterEncode_busLog (s : State) : (enterEncode s).busLog = s.busLog := rfl
@[simp] theorem enterEncode_draws (s : State) : (enterEncode s).draws = s.draws := rfl

@[simp] theorem toExchange_busidx (s : State) : (toExchange s).busidx = s.busidx := rfl
@[simp] theorem toExchange_devidx (s : State) : (toExchange s).devidx = s.devidx := rfl
@[simp] theorem toExchange_ckmode (s : State) : (toExchange s).ckmode = s.ckmode := rfl
@[simp] theorem toExchange_nobus (s : State) : (toExchange s).nobus = s.nobus := rfl
@[simp] theorem toExchange_ckrate (s : State) : (toExchange s).ckrate = s.ckrate := rfl
@[simp] theorem toExchange_wlen (s : State) : (toExchange s).wlen = s.wlen := rfl
@[simp] theorem toExchange_cw (s : State) : (toExchange s).cw = s.cw := rfl
@[simp] theorem toExchange_cpoly (s : State) : (toExchange s).cpoly = s.cpoly := rfl
@[simp] theorem toExchange_cinit (s : State) : (toExchange s).cinit = s.cinit := rfl
@[simp] theorem toExchange_lifecycle (s : State) : (toExchange s).lifecycle = s.lifecycle := rfl
@[simp] theorem toExchange_phase (s : State) : (toExchange s).phase = .exchange := rfl
@[simp] theorem toExchange_cmd (s : State) : (toExchange s).cmd = s.cmd := rfl
@[simp] theorem toExchange_err (s : State) : (toExchange s).err = s.err := rfl
@[simp] theorem toExchange_done (s : State) : (toExchange s).done = s.done := rfl
@[simp] theorem toExchange_crcmm (s : State) : (toExchange s).crcmm = s.crcmm := rfl
@[simp] theorem toExchange_mhw (s : State) : (toExchange s).mhw = s.mhw := rfl
@[simp] theorem toExchange_word (s : State) : (toExchange s).word = s.word := rfl
@[simp] theorem toExchange_txf (s : State) : (toExchange s).txf = s.txf := rfl
@[simp] theorem toExchange_txlen (s : State) : (toExchange s).txlen = s.txlen := rfl
@[simp] theorem toExchange_rxf (s : State) : (toExchange s).rxf = s.rxf := rfl
@[simp] theorem toExchange_rxlen (s : State) : (toExchange s).rxlen = s.rxlen := rfl
@[simp] theorem toExchange_standin (s : State) : (toExchange s).standin = s.standin := rfl
@[simp] theorem toExchange_full (s : State) : (toExchange s).full = s.full := rfl
@[simp] theorem toExchange_payload (s : State) : (toExchange s).payload = s.payload := rfl
@[simp] theorem toExchange_crcrx (s : State) : (toExchange s).crcrx = s.crcrx := rfl
@[simp] theorem toExchange_crccalc (s : State) : (toExchange s).crccalc = s.crccalc := rfl
@[simp] theorem toExchange_creg (s : State) : (toExchange s).creg = s.creg := rfl
@[simp] theorem toExchange_ctab (s : State) : (toExchange s).ctab = s.ctab := rfl
@[simp] theorem toExchange_sizes (s : State) : (toExchange s).sizes = s.sizes := rfl
@[simp] theorem toExchange_rst (s : State) : (toExchange s).rst = s.rst := rfl
@[simp] theorem toExchange_agenda (s : State) : (toExchange s).agenda = s.agenda := rfl
@[simp] theorem toExchange_readData (s : State) : (toExchange s).readData = s.readData := rfl
@[simp] theorem toExchange_busIn (s : State) : (toExchange s).busIn = s.busIn := rfl
@[simp] theorem toExchange_busLog (s : State) : (toExchange s).busLog = s.busLog := rfl
@[simp] theorem toExchange_draws (s : State) : (toExchange s).draws = s.draws := rfl

@[simp] theorem toReassemble_busidx (s : State) : (toReassemble s).busidx = s.busidx := rfl
@[simp] theorem toReassemble_devidx (s : State) : (toReassemble s).devidx = s.devidx := rfl
@[simp] theorem toReassemble_ckmode (s : State) : (toReassemble s).ckmode = s.ckmode := rfl
@[simp] theorem toReassemble_nobus (s : State) : (toReassemble s).nobus = s.nobus := rfl
@[simp] theorem toReassemble_ckrate (s : State) : (toReassemble s).ckrate = s.ckrate := rfl
@[simp] theorem toReassemble_wlen (s : State) : (toReassemble s).wlen = s.wlen := rfl
@[simp] theorem toReassemble_cw (s : State) : (toReassemble s).cw = s.cw := rfl
@[simp] theorem toReassemble_cpoly (s : State) : (toReassemble s).cpoly = s.cpoly := rfl
@[simp] theorem toReassemble_cinit (s : State) : (toReassemble s).cinit = s.cinit := rfl
@[simp] theorem toReassemble_lifecycle (s : State) : (toReassemble s).lifecycle = s.lifecycle := rfl
@[simp] theorem toReassemble_phase (s : State) : (toReassemble s).phase = .reassemble := rfl
@[simp] theorem toReassemble_cmd (s : State) : (toReassemble s).cmd = s.cmd := rfl
@[simp] theorem toReassemble_err (s : State) : (toReassemble s).err = s.err := rfl
@[simp] theorem toReassemble_done (s : State) : (toReassemble s).done = s.done := rfl
@[simp] theorem toReassemble_crcmm (s : State) : (toReassemble s).crcmm = s.crcmm := rfl
@[simp] theorem toReassemble_mhw (s : State) : (toReassemble s).mhw = s.mhw := rfl
@[simp] theorem toReassemble_word (s : State) : (toReassemble s).word = s.word := rfl
@[simp] theorem toReassemble_txf (s : State) : (toReassemble s).txf = s.txf := rfl
@[simp] theorem toReassemble_txlen (s : State) : (toReassemble s).txlen = s.txlen := rfl
@[simp] theorem toReassemble_rxf (s : State) : (toReassemble s).rxf = s.rxf := rfl
@[simp] theorem toReassemble_rxlen (s : State) : (toReassemble s).rxlen = s.rxlen := rfl
@[simp] theorem toReassemble_standin (s : State) : (toReassemble s).standin = s.standin := rfl
@[simp] theorem toReassemble_full (s : State) : (toReassemble s).full = s.full := rfl
@[simp] theorem toReassemble_payload (s : State) : (toReassemble s).payload = s.payload := rfl
@[simp] theorem toReassemble_crcrx (s : State) : (toReassemble s).crcrx = s.crcrx := rfl
@[simp] theorem toReassemble_crccalc (s : State) : (toReassemble s).crccalc = s.crccalc := rfl
@[simp] theorem toReassemble_creg (s : State) : (toReassemble s).creg = s.creg := rfl
@[simp] theorem toReassemble_ctab (s : State) : (toReassemble s).ctab = s.ctab := rfl
@[simp] theorem toReassemble_sizes (s : State) : (toReassemble s).sizes = s.sizes := rfl
@[simp] theorem toReassemble_rst (s : State) : (toReassemble s).rst = s.rst := rfl
@[simp] theorem toReassemble_agenda (s : State) : (toReassemble s).agenda = s.agenda := rfl
@[simp] theorem toReassemble_readData (s : State) : (toReassemble s).readData = s.readData := rfl
@[simp] theorem toReassemble_busIn (s : State) : (toReassemble s).busIn = s.busIn := rfl
@[simp] theorem toReassemble_busLog (s : State) : (toReassemble s).busLog = s.busLog := rfl
@[simp] theorem toReassemble_draws (s : State) : (toReassemble s).draws = s.draws := rfl

@[simp] theorem storeOutbound_busidx (c : Bool) (f : Frame) (s : State) : (storeOutbound c f s).busidx = s.busidx := rfl
@[simp] theorem storeOutbound_devidx (c : Bool) (f : Frame) (s : State) : (storeOutbound c f s).devidx = s.devidx := rfl
@[simp] theorem storeOutbound_ckmode (c : Bool) (f : Frame) (s : State) : (storeOutbound c f s).ckmode = s.ckmode := rfl
@[simp] theorem storeOutbound_nobus (c : Bool) (f : Frame) (s : State) : (storeOutbound c f s).nobus = s.nobus := rfl
@[simp] theorem storeOutbound_ckrate (c : Bool) (f : Frame) (s : State) : (storeOutbound c f s).ckrate = s.ckrate := rfl
@[simp] theorem storeOutbound_wlen (c : Bool) (f : Frame) (s : State) : (storeOutbound c f s).wlen = s.wlen := rfl
@[simp] theorem storeOutbound_cw (c : Bool) (f : Frame) (s : State) : (storeOutbound c f s).cw = s.cw := rfl
@[simp] theorem storeOutbound_cpoly (c : Bool) (f : Frame) (s : State) : (storeOutbound c f s).cpoly = s.cpoly := rfl
@[simp] theorem storeOutbound_cinit (c : Bool) (f : Frame) (s : State) : (storeOutbound c f s).cinit = s.cinit := rfl
@[simp] theorem storeOutbound_lifecycle (c : Bool) (f : Frame) (s : State) : (storeOutbound c f s).lifecycle = s.lifecycle := rfl
@[simp] theorem storeOutbound_phase (c : Bool) (f : Frame) (s : State) : (storeOutbound c f s).phase = s.phase := rfl
@[simp] theorem storeOutbound_cmd (c : Bool) (f : Frame) (s : State) : (storeOutbound c f s).cmd = s.cmd := rfl
@[simp] theorem storeOutbound_err (c : Bool) (f : Frame) (s : State) : (storeOutbound c f s).err = s.err := rfl
@[simp] theorem storeOutbound_done (c : Bool) (f : Frame) (s : State) : (storeOutbound c f s).done = s.done := rfl
@[simp] theorem storeOutbound_crcmm (c : Bool) (f : Frame) (s : State) : (storeOutbound c f s).crcmm = s.crcmm := rfl
@[simp] theorem storeOutbound_mhw (c : Bool) (f : Frame) (s : State) : (storeOutbound c f s).mhw = s.mhw := rfl
@[simp] theorem storeOutbound_word (c : Bool) (f : Frame) (s : State) : (storeOutbound c f s).word = s.word := rfl
@[simp] theorem storeOutbound_txf (c : Bool) (f : Frame) (s : State) : (storeOutbound c f s).txf = loadBuffer f s.draws s.sizes.nfMax := rfl
@[simp] theorem storeOutbound_txlen (c : Bool) (f : Frame) (s : State) : (storeOutbound c f s).txlen = f.length := rfl
@[simp] theorem storeOutbound_rxf (c : Bool) (f : Frame) (s : State) : (storeOutbound c f s).rxf = s.rxf := rfl
@[simp] theorem storeOutbound_rxlen (c : Bool) (f : Frame) (s : State) : (storeOutbound c f s).rxlen = s.rxlen := rfl
@[simp] theorem storeOutbound_standin (c : Bool) (f : Frame) (s : State) : (storeOutbound c f s).standin = s.standin := rfl
@[simp] theorem storeOutbound_full (c : Bool) (f : Frame) (s : State) : (storeOutbound c f s).full = s.full := rfl
@[simp] theorem storeOutbound_payload (c : Bool) (f : Frame) (s : State) : (storeOutbound c f s).payload = s.payload := rfl
@[simp] theorem storeOutbound_crcrx (c : Bool) (f : Frame) (s : State) : (storeOutbound c f s).crcrx = s.crcrx := rfl
@[simp] theorem storeOutbound_crccalc (c : Bool) (f : Frame) (s : State) : (storeOutbound c f s).crccalc = s.crccalc := rfl
@[simp] theorem storeOutbound_creg (c : Bool) (f : Frame) (s : State) : (storeOutbound c f s).creg = if c then s.engineRun (be s.word s.bc) else s.creg := rfl
@[simp] theorem storeOutbound_ctab (c : Bool) (f : Frame) (s : State) : (storeOutbound c f s).ctab = s.ctab := rfl
@[simp] theorem storeOutbound_sizes (c : Bool) (f : Frame) (s : State) : (storeOutbound c f s).sizes = s.sizes := rfl
@[simp] theorem storeOutbound_rst (c : Bool) (f : Frame) (s : State) : (storeOutbound c f s).rst = s.rst := rfl
@[simp] theorem storeOutbound_agenda (c : Bool) (f : Frame) (s : State) : (storeOutbound c f s).agenda = s.agenda := rfl
@[simp] theorem storeOutbound_readData (c : Bool) (f : Frame) (s : State) : (storeOutbound c f s).readData = s.readData := rfl
@[simp] theorem storeOutbound_busIn (c : Bool) (f : Frame) (s : State) : (storeOutbound c f s).busIn = s.busIn := rfl
@[simp] theorem storeOutbound_busLog (c : Bool) (f : Frame) (s : State) : (storeOutbound c f s).busLog = s.busLog := rfl
@[simp] theorem storeOutbound_draws (c : Bool) (f : Frame) (s : State) : (storeOutbound c f s).draws = s.draws + s.sizes.nfMax := rfl

@[simp] theorem storeCreg_busidx (r : Nat) (s : State) : (storeCreg r s).busidx = s.busidx := rfl
@[simp] theorem storeCreg_devidx (r : Nat) (s : State) : (storeCreg r s).devidx = s.devidx := rfl
@[simp] theorem storeCreg_ckmode (r : Nat) (s : State) : (storeCreg r s).ckmode = s.ckmode := rfl
@[simp] theorem storeCreg_nobus (r : Nat) (s : State) : (storeCreg r s).nobus = s.nobus := rfl
@[simp] theorem storeCreg_ckrate (r : Nat) (s : State) : (storeCreg r s).ckrate = s.ckrate := rfl
@[simp] theorem storeCreg_wlen (r : Nat) (s : State) : (storeCreg r s).wlen = s.wlen := rfl
@[simp] theorem storeCreg_cw (r : Nat) (s : State) : (storeCreg r s).cw = s.cw := rfl
@[simp] theorem storeCreg_cpoly (r : Nat) (s : State) : (storeCreg r s).cpoly = s.cpoly := rfl
@[simp] theorem storeCreg_cinit (r : Nat) (s : State) : (storeCreg r s).cinit = s.cinit := rfl
@[simp] theorem storeCreg_lifecycle (r : Nat) (s : State) : (storeCreg r s).lifecycle = s.lifecycle := rfl
@[simp] theorem storeCreg_phase (r : Nat) (s : State) : (storeCreg r s).phase = s.phase := rfl
@[simp] theorem storeCreg_cmd (r : Nat) (s : State) : (storeCreg r s).cmd = s.cmd := rfl
@[simp] theorem storeCreg_err (r : Nat) (s : State) : (storeCreg r s).err = s.err := rfl
@[simp] theorem storeCreg_done (r : Nat) (s : State) : (storeCreg r s).done = s.done := rfl
@[simp] theorem storeCreg_crcmm (r : Nat) (s : State) : (storeCreg r s).crcmm = s.crcmm := rfl
@[simp] theorem storeCreg_mhw (r : Nat) (s : State) : (storeCreg r s).mhw = s.mhw := rfl
@[simp] theorem storeCreg_word (r : Nat) (s : State) : (storeCreg r s).word = s.word := rfl
@[simp] theorem storeCreg_txf (r : Nat) (s : State) : (storeCreg r s).txf = s.txf := rfl
@[simp] theorem storeCreg_txlen (r : Nat) (s : State) : (storeCreg r s).txlen = s.txlen := rfl
@[simp] theorem storeCreg_rxf (r : Nat) (s : State) : (storeCreg r s).rxf = s.rxf := rfl
@[simp] theorem storeCreg_rxlen (r : Nat) (s : State) : (storeCreg r s).rxlen = s.rxlen := rfl
@[simp] theorem storeCreg_standin (r : Nat) (s : State) : (storeCreg r s).standin = s.standin := rfl
@[simp] theorem storeCreg_full (r : Nat) (s : State) : (storeCreg r s).full = s.full := rfl
@[simp] theorem storeCreg_payload (r : Nat) (s : State) : (storeCreg r s).payload = s.payload := rfl
@[simp] theorem storeCreg_crcrx (r : Nat) (s : State) : (storeCreg r s).crcrx = s.crcrx := rfl
@[simp] theorem storeCreg_crccalc (r : Nat) (s : State) : (storeCreg r s).crccalc = s.crccalc := rfl
@[simp] theorem storeCreg_creg (r : Nat) (s : State) : (storeCreg r s).creg = r := rfl
@[simp] theorem storeCreg_ctab (r : Nat) (s : State) : (storeCreg r s).ctab = s.ctab := rfl
@[simp] theorem storeCreg_sizes (r : Nat) (s : State) : (storeCreg r s).sizes = s.sizes := rfl
@[simp] theorem storeCreg_rst (r : Nat) (s : State) : (storeCreg r s).rst = s.rst := rfl
@[simp] theorem storeCreg_agenda (r : Nat) (s : State) : (storeCreg r s).agenda = s.agenda := rfl
@[simp] theorem storeCreg_readData (r : Nat) (s : State) : (storeCreg r s).readData = s.readData := rfl
@[simp] theorem storeCreg_busIn (r : Nat) (s : State) : (storeCreg r s).busIn = s.busIn := rfl
@[simp] theorem storeCreg_busLog (r : Nat) (s : State) : (storeCreg r s).busLog = s.busLog := rfl
@[simp] theorem storeCreg_draws (r : Nat) (s : State) : (storeCreg r s).draws = s.draws := rfl

@[simp] theorem storeInbound_busidx (s : State) : (storeInbound s).busidx = s.busidx := rfl
@[simp] theorem storeInbound_devidx (s : State) : (storeInbound s).devidx = s.devidx := rfl
@[simp] theorem storeInbound_ckmode (s : State) : (storeInbound s).ckmode = s.ckmode := rfl
@[simp] theorem storeInbound_nobus (s : State) : (storeInbound s).nobus = s.nobus := rfl
@[simp] theorem storeInbound_ckrate (s : State) : (storeInbound s).ckrate = s.ckrate := rfl
@[simp] theorem storeInbound_wlen (s : State) : (storeInbound s).wlen = s.wlen := rfl
@[simp] theorem storeInbound_cw (s : State) : (storeInbound s).cw = s.cw := rfl
@[simp] theorem storeInbound_cpoly (s : State) : (storeInbound s).cpoly = s.cpoly := rfl
@[simp] theorem storeInbound_cinit (s : State) : (storeInbound s).cinit = s.cinit := rfl
@[simp] theorem storeInbound_lifecycle (s : State) : (storeInbound s).lifecycle = s.lifecycle := rfl
@[simp] theorem storeInbound_phase (s : State) : (storeInbound s).phase = s.phase := rfl
@[simp] theorem storeInbound_cmd (s : State) : (storeInbound s).cmd = s.cmd := rfl
@[simp] theorem storeInbound_err (s : State) : (storeInbound s).err = s.err := rfl
@[simp] theorem storeInbound_done (s : State) : (storeInbound s).done = s.done := rfl
@[simp] theorem storeInbound_crcmm (s : State) : (storeInbound s).crcmm = s.crcmm := rfl
@[simp] theorem storeInbound_mhw (s : State) : (storeInbound s).mhw = if s.nobus then true else s.mhw := rfl
@[simp] theorem storeInbound_word (s : State) : (storeInbound s).word = s.word := rfl
@[simp] theorem storeInbound_txf (s : State) : (storeInbound s).txf = s.txf := rfl
@[simp] theorem storeInbound_txlen (s : State) : (storeInbound s).txlen = s.txlen := rfl
@[simp] theorem storeInbound_rxf (s : State) : (storeInbound s).rxf = loadBuffer (inboundFrame s s.txlen) (s.draws + s.txlen) s.sizes.nfMax := rfl
@[simp] theorem storeInbound_rxlen (s : State) : (storeInbound s).rxlen = s.txlen := rfl
@[simp] theorem storeInbound_standin (s : State) : (storeInbound s).standin = s.standin := rfl
@[simp] theorem storeInbound_full (s : State) : (storeInbound s).full = s.full := rfl
@[simp] theorem storeInbound_payload (s : State) : (storeInbound s).payload = s.payload := rfl
@[simp] theorem storeInbound_crcrx (s : State) : (storeInbound s).crcrx = s.crcrx := rfl
@[simp] theorem storeInbound_crccalc (s : State) : (storeInbound s).crccalc = s.crccalc := rfl
@[simp] theorem storeInbound_creg (s : State) : (storeInbound s).creg = s.creg := rfl
@[simp] theorem storeInbound_ctab (s : State) : (storeInbound s).ctab = s.ctab := rfl
@[simp] theorem storeInbound_sizes (s : State) : (storeInbound s).sizes = s.sizes := rfl
@[simp] theorem storeInbound_rst (s : State) : (storeInbound s).rst = s.rst := rfl
@[simp] theorem storeInbound_agenda (s : State) : (storeInbound s).agenda = s.agenda := rfl
@[simp] theorem storeInbound_readData (s : State) : (storeInbound s).readData = s.readData := rfl
@[simp] theorem storeInbound_busIn (s : State) : (storeInbound s).busIn = if s.nobus then s.busIn else s.busIn.drop s.txlen := rfl
@[simp] theorem storeInbound_busLog (s : State) : (storeInbound s).busLog = if s.nobus then s.busLog else s.busLog ++ [exchangeOf s] := rfl
@[simp] theorem storeInbound_draws (s : State) : (storeInbound s).draws = s.draws + s.txlen + s.sizes.nfMax := rfl

@[simp] theorem storeFull_busidx (s : State) : (storeFull s).busidx = s.busidx := rfl
@[simp] theorem storeFull_devidx (s : State) : (storeFull s).devidx = s.devidx := rfl
@[simp] theorem storeFull_ckmode (s : State) : (storeFull s).ckmode = s.ckmode := rfl
@[simp] theorem storeFull_nobus (s : State) : (storeFull s).nobus = s.nobus := rfl
@[simp] theorem storeFull_ckrate (s : State) : (storeFull s).ckrate = s.ckrate := rfl
@[simp] theorem storeFull_wlen (s : State) : (storeFull s).wlen = s.wlen := rfl
@[simp] theorem storeFull_cw (s : State) : (storeFull s).cw = s.cw := rfl
@[simp] theorem storeFull_cpoly (s : State) : (storeFull s).cpoly = s.cpoly := rfl
@[simp] theorem storeFull_cinit (s : State) : (storeFull s).cinit = s.cinit := rfl
@[simp] theorem storeFull_lifecycle (s : State) : (storeFull s).lifecycle = s.lifecycle := rfl
@[simp] theorem storeFull_phase (s : State) : (storeFull s).phase = .check := rfl
@[simp] theorem storeFull_cmd (s : State) : (storeFull s).cmd = s.cmd := rfl
@[simp] theorem storeFull_err (s : State) : (storeFull s).err = s.err := rfl
@[simp] theorem storeFull_done (s : State) : (storeFull s).done = s.done := rfl
@[simp] theorem storeFull_crcmm (s : State) : (storeFull s).crcmm = s.crcmm := rfl
@[simp] theorem storeFull_mhw (s : State) : (storeFull s).mhw = s.mhw := rfl
@[simp] theorem storeFull_word (s : State) : (storeFull s).word = s.word := rfl
@[simp] theorem storeFull_txf (s : State) : (storeFull s).txf = s.txf := rfl
@[simp] theorem storeFull_txlen (s : State) : (storeFull s).txlen = s.txlen := rfl
@[simp] theorem storeFull_rxf (s : State) : (storeFull s).rxf = s.rxf := rfl
@[simp] theorem storeFull_rxlen (s : State) : (storeFull s).rxlen = s.rxlen := rfl
@[simp] theorem storeFull_standin (s : State) : (storeFull s).standin = s.standin := rfl
@[simp] theorem storeFull_full (s : State) : (storeFull s).full = s.fullWord := rfl
@[simp] theorem storeFull_payload (s : State) : (storeFull s).payload = s.payload := rfl
@[simp] theorem storeFull_crcrx (s : State) : (storeFull s).crcrx = s.crcrx := rfl
@[simp] theorem storeFull_crccalc (s : State) : (storeFull s).crccalc = s.crccalc := rfl
@[simp] theorem storeFull_creg (s : State) : (storeFull s).creg = s.creg := rfl
@[simp] theorem storeFull_ctab (s : State) : (storeFull s).ctab = s.ctab := rfl
@[simp] theorem storeFull_sizes (s : State) : (storeFull s).sizes = s.sizes := rfl
@[simp] theorem storeFull_rst (s : State) : (storeFull s).rst = s.rst := rfl
@[simp] theorem storeFull_agenda (s : State) : (storeFull s).agenda = s.agenda := rfl
@[simp] theorem storeFull_readData (s : State) : (storeFull s).readData = s.readData := rfl
@[simp] theorem storeFull_busIn (s : State) : (storeFull s).busIn = s.busIn := rfl
@[simp] theorem storeFull_busLog (s : State) : (storeFull s).busLog = s.busLog := rfl
@[simp] theorem storeFull_draws (s : State) : (storeFull s).draws = s.draws := rfl

@[simp] theorem storePlainRead_busidx (s : State) : (storePlainRead s).busidx = s.busidx := rfl
@[simp] theorem storePlainRead_devidx (s : State) : (storePlainRead s).devidx = s.devidx := rfl
@[simp] theorem storePlainRead_ckmode (s : State) : (storePlainRead s).ckmode = s.ckmode := rfl
@[simp] theorem storePlainRead_nobus (s : State) : (storePlainRead s).nobus = s.nobus := rfl
@[simp] theorem storePlainRead_ckrate (s : State) : (storePlainRead s).ckrate = s.ckrate := rfl
@[simp] theorem storePlainRead_wlen (s : State) : (storePlainRead s).wlen = s.wlen := rfl
@[simp] theorem storePlainRead_cw (s : State) : (storePlainRead s).cw = s.cw := rfl
@[simp] theorem storePlainRead_cpoly (s : State) : (storePlainRead s).cpoly = s.cpoly := rfl
@[simp] theorem storePlainRead_cinit (s : State) : (storePlainRead s).cinit = s.cinit := rfl
@[simp] theorem storePlainRead_lifecycle (s : State) : (storePlainRead s).lifecycle = s.lifecycle := rfl
@[simp] theorem storePlainRead_phase (s : State) : (storePlainRead s).phase = s.phase := rfl
@[simp] theorem storePlainRead_cmd (s : State) : (storePlainRead s).cmd = s.cmd := rfl
@[simp] theorem storePlainRead_err (s : State) : (storePlainRead s).err = s.err := rfl
@[simp] theorem storePlainRead_done (s : State) : (storePlainRead s).done = s.done := rfl
@[simp] theorem storePlainRead_crcmm (s : State) : (storePlainRead s).crcmm = s.crcmm := rfl
@[simp] theorem storePlainRead_mhw (s : State) : (storePlainRead s).mhw = s.mhw := rfl
@[simp] theorem storePlainRead_word (s : State) : (storePlainRead s).word = s.word := rfl
@[simp] theorem storePlainRead_txf (s : State) : (storePlainRead s).txf = s.txf := rfl
@[simp] theorem storePlainRead_txlen (s : State) : (storePlainRead s).txlen = s.txlen := rfl
@[simp] theorem storePlainRead_rxf (s : State) : (storePlainRead s).rxf = s.rxf := rfl
@[simp] theorem storePlainRead_rxlen (s : State) : (storePlainRead s).rxlen = s.rxlen := rfl
@[simp] theorem storePlainRead_standin (s : State) : (storePlainRead s).standin = s.standin := rfl
@[simp] theorem storePlainRead_full (s : State) : (storePlainRead s).full = s.fullWord := rfl
@[simp] theorem storePlainRead_payload (s : State) : (storePlainRead s).payload = s.fullWord := rfl
@[simp] theorem storePlainRead_crcrx (s : State) : (storePlainRead s).crcrx = 0 := rfl
@[simp] theorem storePlainRead_crccalc (s : State) : (storePlainRead s).crccalc = 0 := rfl
@[simp] theorem storePlainRead_creg (s : State) : (storePlainRead s).creg = s.creg := rfl
@[simp] theorem storePlainRead_ctab (s : State) : (storePlainRead s).ctab = s.ctab := rfl
@[simp] theorem storePlainRead_sizes (s : State) : (storePlainRead s).sizes = s.sizes := rfl
@[simp] theorem storePlainRead_rst (s : State) : (storePlainRead s).rst = s.rst := rfl
@[simp] theorem storePlainRead_agenda (s : State) : (storePlainRead s).agenda = s.agenda := rfl
@[simp] theorem storePlainRead_readData (s : State) : (storePlainRead s).readData = s.readData := rfl
@[simp] theorem storePlainRead_busIn (s : State) : (storePlainRead s).busIn = s.busIn := rfl
@[simp] theorem storePlainRead_busLog (s : State) : (storePlainRead s).busLog = s.busLog := rfl
@[simp] theorem storePlainRead_draws (s : State) : (storePlainRead s).draws = s.draws := rfl

@[simp] theorem storeCheck_busidx (r : CrcCheck) (s : State) : (storeCheck r s).busidx = s.busidx := rfl
@[simp] theorem storeCheck_devidx (r : CrcCheck) (s : State) : (storeCheck r s).devidx = s.devidx := rfl
@[simp] theorem storeCheck_ckmode (r : CrcCheck) (s : State) : (storeCheck r s).ckmode = s.ckmode := rfl
@[simp] theorem storeCheck_nobus (r : CrcCheck) (s : State) : (storeCheck r s).nobus = s.nobus := rfl
@[simp] theorem storeCheck_ckrate (r : CrcCheck) (s : State) : (storeCheck r s).ckrate = s.ckrate := rfl
@[simp] theorem storeCheck_wlen (r : CrcCheck) (s : State) : (storeCheck r s).wlen = s.wlen := rfl
@[simp] theorem storeCheck_cw (r : CrcCheck) (s : State) : (storeCheck r s).cw = s.cw := rfl
@[simp] theorem storeCheck_cpoly (r : CrcCheck) (s : State) : (storeCheck r s).cpoly = s.cpoly := rfl
@[simp] theorem storeCheck_cinit (r : CrcCheck) (s : State) : (storeCheck r s).cinit = s.cinit := rfl
@[simp] theorem storeCheck_lifecycle (r : CrcCheck) (s : State) : (storeCheck r s).lifecycle = s.lifecycle := rfl
@[simp] theorem storeCheck_phase (r : CrcCheck) (s : State) : (storeCheck r s).phase = s.phase := rfl
@[simp] theorem storeCheck_cmd (r : CrcCheck) (s : State) : (storeCheck r s).cmd = s.cmd := rfl
@[simp] theorem storeCheck_err (r : CrcCheck) (s : State) : (storeCheck r s).err = s.err := rfl
@[simp] theorem storeCheck_done (r : CrcCheck) (s : State) : (storeCheck r s).done = s.done := rfl
@[simp] theorem storeCheck_crcmm (r : CrcCheck) (s : State) : (storeCheck r s).crcmm = r.mismatch := rfl
@[simp] theorem storeCheck_mhw (r : CrcCheck) (s : State) : (storeCheck r s).mhw = s.mhw := rfl
@[simp] theorem storeCheck_word (r : CrcCheck) (s : State) : (storeCheck r s).word = s.word := rfl
@[simp] theorem storeCheck_txf (r : CrcCheck) (s : State) : (storeCheck r s).txf = s.txf := rfl
@[simp] theorem storeCheck_txlen (r : CrcCheck) (s : State) : (storeCheck r s).txlen = s.txlen := rfl
@[simp] theorem storeCheck_rxf (r : CrcCheck) (s : State) : (storeCheck r s).rxf = s.rxf := rfl
@[simp] theorem storeCheck_rxlen (r : CrcCheck) (s : State) : (storeCheck r s).rxlen = s.rxlen := rfl
@[simp] theorem storeCheck_standin (r : CrcCheck) (s : State) : (storeCheck r s).standin = s.standin := rfl
@[simp] theorem storeCheck_full (r : CrcCheck) (s : State) : (storeCheck r s).full = s.full := rfl
@[simp] theorem storeCheck_payload (r : CrcCheck) (s : State) : (storeCheck r s).payload = r.payload := rfl
@[simp] theorem storeCheck_crcrx (r : CrcCheck) (s : State) : (storeCheck r s).crcrx = r.crcrx := rfl
@[simp] theorem storeCheck_crccalc (r : CrcCheck) (s : State) : (storeCheck r s).crccalc = r.recomputed := rfl
@[simp] theorem storeCheck_creg (r : CrcCheck) (s : State) : (storeCheck r s).creg = r.recomputed := rfl
@[simp] theorem storeCheck_ctab (r : CrcCheck) (s : State) : (storeCheck r s).ctab = s.ctab := rfl
@[simp] theorem storeCheck_sizes (r : CrcCheck) (s : State) : (storeCheck r s).sizes = s.sizes := rfl
@[simp] theorem storeCheck_rst (r : CrcCheck) (s : State) : (storeCheck r s).rst = s.rst := rfl
@[simp] theorem storeCheck_agenda (r : CrcCheck) (s : State) : (storeCheck r s).agenda = s.agenda := rfl
@[simp] theorem storeCheck_readData (r : CrcCheck) (s : State) : (storeCheck r s).readData = s.readData := rfl
@[simp] theorem storeCheck_busIn (r : CrcCheck) (s : State) : (storeCheck r s).busIn = s.busIn := rfl
@[simp] theorem storeCheck_busLog (r : CrcCheck) (s : State) : (storeCheck r s).busLog = s.busLog := rfl
@[simp] theorem storeCheck_draws (r : CrcCheck) (s : State) : (storeCheck r s).draws = s.draws := rfl

@[simp] theorem makeReady_busidx (s : State) : (makeReady s).busidx = s.busidx := rfl
@[simp] theorem makeReady_devidx (s : State) : (makeReady s).devidx = s.devidx := rfl
@[simp] theorem makeReady_ckmode (s : State) : (makeReady s).ckmode = s.ckmode := rfl
@[simp] theorem makeReady_nobus (s : State) : (makeReady s).nobus = s.nobus := rfl
@[simp] theorem makeReady_ckrate (s : State) : (makeReady s).ckrate = s.ckrate := rfl
@[simp] theorem makeReady_wlen (s : State) : (makeReady s).wlen = s.wlen := rfl
@[simp] theorem makeReady_cw (s : State) : (makeReady s).cw = s.cw := rfl
@[simp] theorem makeReady_cpoly (s : State) : (makeReady s).cpoly = s.cpoly := rfl
@[simp] theorem makeReady_cinit (s : State) : (makeReady s).cinit = s.cinit := rfl
@[simp] theorem makeReady_lifecycle (s : State) : (makeReady s).lifecycle = .ready := rfl
@[simp] theorem makeReady_phase (s : State) : (makeReady s).phase = s.phase := rfl
@[simp] theorem makeReady_cmd (s : State) : (makeReady s).cmd = s.cmd := rfl
@[simp] theorem makeReady_err (s : State) : (makeReady s).err = s.err := rfl
@[simp] theorem makeReady_done (s : State) : (makeReady s).done = s.done := rfl
@[simp] theorem makeReady_crcmm (s : State) : (makeReady s).crcmm = s.crcmm := rfl
@[simp] theorem makeReady_mhw (s : State) : (makeReady s).mhw = s.mhw := rfl
@[simp] theorem makeReady_word (s : State) : (makeReady s).word = s.word := rfl
@[simp] theorem makeReady_txf (s : State) : (makeReady s).txf = s.txf := rfl
@[simp] theorem makeReady_txlen (s : State) : (makeReady s).txlen = s.txlen := rfl
@[simp] theorem makeReady_rxf (s : State) : (makeReady s).rxf = s.rxf := rfl
@[simp] theorem makeReady_rxlen (s : State) : (makeReady s).rxlen = s.rxlen := rfl
@[simp] theorem makeReady_standin (s : State) : (makeReady s).standin = s.standin := rfl
@[simp] theorem makeReady_full (s : State) : (makeReady s).full = s.full := rfl
@[simp] theorem makeReady_payload (s : State) : (makeReady s).payload = s.payload := rfl
@[simp] theorem makeReady_crcrx (s : State) : (makeReady s).crcrx = s.crcrx := rfl
@[simp] theorem makeReady_crccalc (s : State) : (makeReady s).crccalc = s.crccalc := rfl
@[simp] theorem makeReady_creg (s : State) : (makeReady s).creg = s.creg := rfl
@[simp] theorem makeReady_ctab (s : State) : (makeReady s).ctab = s.ctab.map fun _ => buildTable s.cw.toNat s.cpoly := rfl
@[simp] theorem makeReady_sizes (s : State) : (makeReady s).sizes = s.sizes := rfl
@[simp] theorem makeReady_rst (s : State) : (makeReady s).rst = s.rst := rfl
@[simp] theorem makeReady_agenda (s : State) : (makeReady s).agenda = s.agenda := rfl
@[simp] theorem makeReady_readData (s : State) : (makeReady s).readData = s.readData := rfl
@[simp] theorem makeReady_busIn (s : State) : (makeReady s).busIn = s.busIn := rfl
@[simp] theorem makeReady_busLog (s : State) : (makeReady s).busLog = s.busLog := rfl
@[simp] theorem makeReady_draws (s : State) : (makeReady s).draws = s.draws := rfl

end Sys2Proof.Machine
end

