-- ==== Sys2Proof/Laws/Ops.lean ====
section
/-! SUPPORT. For each shared operation one lemma that says everything it can do, to be cited instead of unfolding the
operation. -/

namespace Sys2Proof.Machine

/-- A loaded buffer has the size asked for. -/
@[simp] theorem loadBuffer_length (f : Frame) (d size : Nat) : (loadBuffer f d size).length = size := by
  simp [loadBuffer]

/-- A buffer loaded with a frame that it can hold holds that frame. -/
theorem bufferPrefix_loadBuffer (f : Frame) (d size : Nat) (h : f.length ≤ size) :
    bufferPrefix (loadBuffer f d size) f.length = f := by
  apply List.ext_getElem
  · simp [bufferPrefix, h]
  · intro i h1 h2
    simp [bufferPrefix, loadBuffer, h2]

/-- A prefix of a buffer has the length asked for, up to the buffer's. -/
theorem bufferPrefix_length (b : Buffer) (n : Nat) (h : n ≤ b.length) : (bufferPrefix b n).length = n := by
  simp [bufferPrefix, h]

/-- The bus answers exactly as many bytes as it is given. -/
theorem busAnswer_length (s : State) (n : Nat) : (busAnswer s n).length = n := by
  simp [busAnswer]

/-- The bus answer begins with the bytes the bus agent has ready. -/
theorem busAnswer_take (s : State) (n : Nat) : (busAnswer s n).take s.busIn.length = s.busIn.take n := by
  apply List.ext_getElem
  · simp [busAnswer, Nat.min_comm]
  · intro i h1 h2
    simp only [List.length_take] at h2
    simp [busAnswer, show i < s.busIn.length by omega]

/-- The inbound frame has the length of the outbound frame. -/
theorem inboundFrame_length (s : State) (n : Nat) (h : n ≤ s.standin.length) : (inboundFrame s n).length = n := by
  unfold inboundFrame
  split
  · exact bufferPrefix_length _ _ h
  · exact busAnswer_length _ _

/-- `BE(v, n)` has exactly `n` bytes, whatever `v`. -/
theorem be_length_eq (v n : Nat) : (be v n).length = n := by
  induction n with
  | zero => rfl
  | succ n ih => simp [be, ih]

/-- What `encode` can answer: overflow, or a frame of the word's bytes and, with the flag, the CRC's. -/
theorem encodeBy_cases (crc : Frame → Nat) (word bc : Nat) (c : Bool) (W : Nat) :
    (2 ^ (8 * bc) ≤ word ∧ encodeBy crc word bc c W = none) ∨
    (word < 2 ^ (8 * bc) ∧
      encodeBy crc word bc c W
        = some (be word bc ++ if c then be (crc (be word bc)) (crcByteCount W) else [])) := by
  unfold encodeBy
  by_cases h : 2 ^ (8 * bc) ≤ word
  · exact .inl ⟨h, by simp [h]⟩
  · refine .inr ⟨by omega, ?_⟩
    cases c <;> simp [h]

/-- A command that the lifecycle allows runs, and one that it does not takes BadState. -/
theorem whenAllowed_cases (i : Instr) (s : State) (run : State → State) :
    (allowedIn i s.lifecycle = true ∧ whenAllowed i s run = run s) ∨
    (allowedIn i s.lifecycle = false ∧ whenAllowed i s run = raise .badState s) := by
  unfold whenAllowed
  cases h : allowedIn i s.lifecycle <;> simp

/-- Everything the ENCODE phase can do: OverflowError with nothing stored, or the frame stored and the command gone
on. -/
theorem encodePhase_cases (c : Bool) (go : State → State) (s : State) :
    (2 ^ (8 * s.bc) ≤ s.word ∧ encodePhase c go s = raise .overflowError s) ∨
    (s.word < 2 ^ (8 * s.bc) ∧
      encodePhase c go s
        = go (storeOutbound c
            (be s.word s.bc ++
              if c then be (s.engineRun (be s.word s.bc)) (crcByteCount s.cw.toNat) else []) s)) := by
  unfold encodePhase
  rcases encodeBy_cases s.engineRun s.word s.bc c s.cw.toNat with ⟨h, e⟩ | ⟨h, e⟩
  · exact .inl ⟨h, by rw [e]⟩
  · exact .inr ⟨h, by rw [e]⟩

/-- Everything the step of GENCRC can do. -/
theorem genCrcPhase_cases (s : State) :
    (2 ^ (8 * s.bc) ≤ s.word ∧ genCrcPhase s = raise .overflowError s) ∨
    (s.word < 2 ^ (8 * s.bc) ∧
      genCrcPhase s = finish (storeCreg (s.engineRun (be s.word s.bc)) s)) := by
  unfold genCrcPhase State.wordFits
  by_cases h : s.word < 2 ^ (8 * s.bc)
  · exact .inr ⟨h, by simp [h]⟩
  · exact .inl ⟨by omega, by simp [h]⟩

/-- Everything CONFIGURE can do in UNCONFIGURED. -/
theorem configureBlock_cases (s : State) :
    (s.validConfig = true ∧
      configureBlock s = finish (makeReady s)) ∨
    (s.validConfig = false ∧ configureBlock s = raise .configurationError s) := by
  unfold configureBlock
  cases h : s.validConfig <;> simp

/-- Everything `exec` can answer, by the phase it is asked in; a fault is the only other answer. -/
theorem exec_next_cases (i : Instr) (s t : State) (h : exec i s = .next t) :
    (s.phase = .idle ∧ allowedIn i s.lifecycle = false ∧ t = raise .badState s) ∨
    (s.phase = .idle ∧ allowedIn i s.lifecycle = true ∧
      ((i = .configure ∧ t = configureBlock s) ∨
       (i = .crcStart ∧ t = startCrc s) ∨
       (∃ d, i = .crcByte d ∧ t = takeByte d s) ∨
       ((i = .genCrc ∨ (∃ c, i = .encode c) ∨ (∃ c v, i = .write c v) ∨ ∃ c v, i = .read c v) ∧
         t = enterEncode s))) ∨
    (s.phase = .encode ∧
      ((i = .genCrc ∧ t = genCrcPhase s) ∨
       (∃ c, i = .encode c ∧ t = encodePhase c finish s) ∨
       (∃ c v, (i = .write c v ∨ i = .read c v) ∧ t = encodePhase c toExchange s))) ∨
    (s.phase = .exchange ∧
      ((∃ c v, i = .write c v ∧ t = exchangePhase finish s) ∨
       (∃ c v, i = .read c v ∧ t = exchangePhase toReassemble s))) ∨
    (s.phase = .reassemble ∧ ∃ c v, i = .read c v ∧ t = reassemblePhase c s) ∨
    (s.phase = .check ∧ ∃ v, i = .read true v ∧ t = checkPhase s) := by
  cases i <;> cases hp : s.phase <;>
    simp only [exec, execConfigure, execEncode, execWrite, execRead, execGenCrc, execCrcStart, execCrcByte, hp,
      reduceCtorEq, Host.Outcome.next.injEq] at h
  case read.check c v => cases c <;> simp_all
  all_goals try subst h
  case configure.idle =>
    rcases whenAllowed_cases .configure s configureBlock with ⟨a, e⟩ | ⟨a, e⟩ <;> simp [a, e]
  case encode.idle c =>
    rcases whenAllowed_cases (.encode c) s enterEncode with ⟨a, e⟩ | ⟨a, e⟩ <;> simp [a, e]
  case write.idle c v =>
    rcases whenAllowed_cases (.write c v) s enterEncode with ⟨a, e⟩ | ⟨a, e⟩ <;> simp [a, e]
  case read.idle c v =>
    rcases whenAllowed_cases (.read c v) s enterEncode with ⟨a, e⟩ | ⟨a, e⟩ <;> simp [a, e]
  case genCrc.idle =>
    rcases whenAllowed_cases .genCrc s enterEncode with ⟨a, e⟩ | ⟨a, e⟩ <;> simp [a, e]
  case crcStart.idle =>
    rcases whenAllowed_cases .crcStart s startCrc with ⟨a, e⟩ | ⟨a, e⟩ <;> simp [a, e]
  case crcByte.idle d =>
    rcases whenAllowed_cases (.crcByte d) s (takeByte d) with ⟨a, e⟩ | ⟨a, e⟩ <;> simp [a, e]
  all_goals simp

/-- A command in a phase of its own always has a next state. -/
theorem exec_total_idle (i : Instr) (s : State) (h : s.phase = .idle) : ∃ t, exec i s = .next t := by
  cases i <;> simp [exec, execConfigure, execEncode, execWrite, execRead, execGenCrc, execCrcStart, execCrcByte, h]

/-- An idle block has no phase step left. -/
theorem finishPhases_idle (k : Nat) (i : Instr) (s : State) (h : s.phase = .idle) : finishPhases k i s = .next s := by
  cases k <;> simp [finishPhases, State.busy, h]

/-- A busy block takes the phase step of its command and goes on from there. -/
theorem finishPhases_step (k : Nat) (i : Instr) (s t : State) (h : s.phase ≠ .idle) (he : exec i s = .next t) :
    finishPhases (k + 1) i s = finishPhases k i t := by
  simp [finishPhases, State.busy, h, he]

end Sys2Proof.Machine
end

