-- ==== Sys2Proof/Laws/PerInstr.lean ====
section
/-! SUPPORT. Statements for all instructions, one lemma per constructor: the family `RowMatch`, about the instruction as
syntax and its word (30_encoding.md R82, R83). -/

namespace Sys2Proof.Laws.RowMatch

/-- The word of the instruction matches its row of the opcode map and is well formed. -/
def Statement (i : Instr) : Prop :=
  encode i &&& rowMask i = rowMatch i ∧ wordWellFormed (encode i) = true

theorem configure : Statement .configure := by
  unfold Statement
  decide

theorem encode (c : Bool) : Statement (.encode c) := by
  unfold Statement
  revert c
  decide

theorem write (c v : Bool) : Statement (.write c v) := by
  unfold Statement
  revert c v
  decide

theorem read (c v : Bool) : Statement (.read c v) := by
  unfold Statement
  revert c v
  decide

theorem genCrc : Statement .genCrc := by
  unfold Statement
  decide

theorem crcStart : Statement .crcStart := by
  unfold Statement
  decide

theorem crcByte (data : Byte) : Statement (.crcByte data) := by
  unfold Statement
  revert data
  decide +kernel

end Sys2Proof.Laws.RowMatch
end

