-- ==== Sys2Proof/Laws/RegSpace.lean ====
section
/-! SUPPORT. The small lemmas of the register space: limbs, byte lanes, and what a register write can change, to be cited
instead of unfolding them. -/

namespace Sys2Proof.Machine

/-- A wide value is its low limbs and the rest above them. -/
theorem shiftRight_limbs_split (x j : Nat) :
    x >>> (32 * j) = (limb x j).toNat + (x >>> (32 * (j + 1))) * 2 ^ 32 := by
  have h : x >>> (32 * (j + 1)) = (x >>> (32 * j)) / 2 ^ 32 := by
    rw [Nat.mul_add, Nat.shiftRight_add, Nat.shiftRight_eq_div_pow _ (32 * 1)]
  rw [h, limb, BitVec.toNat_ofNat]
  exact (Nat.mod_add_div' _ _).symm

/-- What `setLimb` stores in the limb, in front of what was above it: the part of `v` that the width holds. -/
theorem setLimb_shiftRight (width x j : Nat) (v : Word32) :
    setLimb width x j v >>> (32 * j)
      = v.toNat % 2 ^ (width - 32 * j) + (x >>> (32 * (j + 1))) * 2 ^ 32 := by
  have hp : 0 < 2 ^ (32 * j) := Nat.two_pow_pos _
  have e : setLimb width x j v
      = x % 2 ^ (32 * j)
        + 2 ^ (32 * j) * (v.toNat % 2 ^ (width - 32 * j) + (x >>> (32 * (j + 1))) * 2 ^ 32) := by
    unfold setLimb
    rw [show 32 * (j + 1) = 32 * j + 32 by ring, pow_add]
    ring
  rw [e, Nat.shiftRight_eq_div_pow, Nat.add_mul_div_left _ _ hp, Nat.div_eq_of_lt (Nat.mod_lt _ hp), Nat.zero_add]

/-- The limb that was set reads back, cut to the width of the register. -/
theorem limb_setLimb_same (width x j : Nat) (v : Word32) :
    limb (setLimb width x j v) j = BitVec.ofNat 32 (v.toNat % 2 ^ (width - 32 * j)) := by
  unfold limb
  rw [setLimb_shiftRight]
  apply BitVec.eq_of_toNat_eq
  simp [Nat.add_mul_mod_self_right]

/-- A limb of a register of that many bits reads back whole. -/
theorem limb_setLimb_whole (width x j : Nat) (v : Word32) (h : 32 * (j + 1) ≤ width) :
    limb (setLimb width x j v) j = v := by
  have hv : v.toNat < 2 ^ (width - 32 * j) :=
    lt_of_lt_of_le v.isLt (Nat.pow_le_pow_right (by decide) (by omega))
  rw [limb_setLimb_same, Nat.mod_eq_of_lt hv, BitVec.ofNat_toNat, BitVec.setWidth_eq]

/-- What lies below the limb that was set is as before. -/
theorem setLimb_mod (width x j : Nat) (v : Word32) : setLimb width x j v % 2 ^ (32 * j) = x % 2 ^ (32 * j) := by
  unfold setLimb
  rw [show 32 * (j + 1) = 32 * j + 32 by ring, pow_add, ← Nat.mul_assoc, Nat.mul_right_comm, Nat.add_mul_mod_self_right,
    Nat.add_mul_mod_self_right, Nat.mod_mod]

/-- What lies above the limb that was set is as before. -/
theorem setLimb_shiftRight_next (width x j : Nat) (v : Word32) :
    setLimb width x j v >>> (32 * (j + 1)) = x >>> (32 * (j + 1)) := by
  have hlt : v.toNat % 2 ^ (width - 32 * j) < 2 ^ 32 := lt_of_le_of_lt (Nat.mod_le _ _) v.isLt
  rw [Nat.mul_add, Nat.shiftRight_add, setLimb_shiftRight, Nat.shiftRight_eq_div_pow _ (32 * 1), Nat.mul_one,
    Nat.add_mul_div_right _ _ (by decide), Nat.div_eq_of_lt hlt, Nat.zero_add]
  rfl

/-- A register of `width` bits keeps its width. -/
theorem setLimb_lt (width x j : Nat) (v : Word32) (h : x < 2 ^ width) : setLimb width x j v < 2 ^ width := by
  by_cases hj : 32 * j < width
  · have hp : 0 < 2 ^ (32 * j) := Nat.two_pow_pos _
    have hw : 2 ^ width = 2 ^ (width - 32 * j) * 2 ^ (32 * j) := by rw [← pow_add]; congr 1; omega
    suffices hs : setLimb width x j v >>> (32 * j) < 2 ^ (width - 32 * j) by
      rwa [Nat.shiftRight_eq_div_pow, Nat.div_lt_iff_lt_mul hp, ← hw] at hs
    rw [setLimb_shiftRight]
    by_cases hn : 32 * (j + 1) ≤ width
    · have hq : x >>> (32 * (j + 1)) < 2 ^ (width - 32 * (j + 1)) := by
        rw [Nat.shiftRight_eq_div_pow, Nat.div_lt_iff_lt_mul (Nat.two_pow_pos _), ← pow_add]
        rwa [show width - 32 * (j + 1) + 32 * (j + 1) = width by omega]
      have hv : v.toNat % 2 ^ (width - 32 * j) < 2 ^ 32 := lt_of_le_of_lt (Nat.mod_le _ _) v.isLt
      have hs : 2 ^ (width - 32 * j) = 2 ^ (width - 32 * (j + 1)) * 2 ^ 32 := by rw [← pow_add]; congr 1; omega
      rw [hs] at hv ⊢
      nlinarith
    · have hx : x >>> (32 * (j + 1)) = 0 := by
        rw [Nat.shiftRight_eq_div_pow]
        exact Nat.div_eq_of_lt (lt_of_lt_of_le h (Nat.pow_le_pow_right (by decide) (by omega)))
      rw [hx, Nat.zero_mul, Nat.add_zero]
      exact Nat.mod_lt _ (Nat.two_pow_pos _)
  · have hx : x < 2 ^ (32 * j) := lt_of_lt_of_le h (Nat.pow_le_pow_right (by decide) (by omega))
    have h0 : x >>> (32 * (j + 1)) = 0 := by
      rw [Nat.shiftRight_eq_div_pow]
      exact Nat.div_eq_of_lt (lt_of_lt_of_le hx (Nat.pow_le_pow_right (by decide) (by omega)))
    have hz : width - 32 * j = 0 := by omega
    unfold setLimb
    rw [h0, hz, Nat.mod_eq_of_lt hx]
    simpa [Nat.mod_one] using h

/-- A write to bytes of a buffer keeps its length. -/
@[simp] theorem setBufferLimb_length (b : Buffer) (j : Nat) (v : Word32) : (setBufferLimb b j v).length = b.length := by
  simp [setBufferLimb]

/-- The lanes of a buffer after a write: the bytes of the value in the register written, the old bytes elsewhere. -/
theorem lane_setBufferLimb (b : Buffer) (j i : Nat) (v : Word32) (h : i < b.length) :
    lane (setBufferLimb b j v) i = if i / 4 = j then v.extractLsb' (8 * (i % 4)) 8 else lane b i := by
  simp [lane, setBufferLimb, h]

/-- A lane beyond the buffer reads 0. -/
theorem lane_beyond (b : Buffer) (i : Nat) (h : b.length ≤ i) : lane b i = 0 := by
  simp [lane, h]

/-- Everything a register write can change: `WORD`, `STANDIN`, or configuration fields before CONFIGURE. -/
theorem writeAt_cases (addr : Nat) (v : Word32) (s : State) :
    writeAt addr v s = s ∨
    (∃ j, writeAt addr v s = { s with word := setLimb (8 * s.sizes.nfMax) s.word j v }) ∨
    (∃ j, writeAt addr v s = { s with standin := setBufferLimb s.standin j v }) ∨
    (s.lifecycle = .unconfigured ∧
      ((∃ b d m n, writeAt addr v s = { s with busidx := b, devidx := d, ckmode := m, nobus := n }) ∨
       (∃ r, writeAt addr v s = { s with ckrate := r }) ∨
       (∃ n, writeAt addr v s = { s with wlen := n }) ∨
       (∃ n, writeAt addr v s = { s with cw := n }) ∨
       (∃ j, writeAt addr v s = { s with cpoly := setLimb s.sizes.cwMax s.cpoly j v }) ∨
       ∃ j, writeAt addr v s = { s with cinit := setLimb s.sizes.cwMax s.cinit j v })) := by
  unfold writeAt
  cases regAt addr with
  | none => exact .inl rfl
  | some r =>
    by_cases hl : s.lifecycle = .unconfigured
    · cases r <;> simp only [writeReg, hl, if_true]
      case word j => exact .inr (.inl ⟨j.val, rfl⟩)
      case standin j => exact .inr (.inr (.inl ⟨j.val, rfl⟩))
      case bussel => exact .inr (.inr (.inr ⟨trivial, .inl ⟨_, _, _, _, rfl⟩⟩))
      case ckrate => exact .inr (.inr (.inr ⟨trivial, .inr (.inl ⟨_, rfl⟩)⟩))
      case wlen => exact .inr (.inr (.inr ⟨trivial, .inr (.inr (.inl ⟨_, rfl⟩))⟩))
      case cwidth => exact .inr (.inr (.inr ⟨trivial, .inr (.inr (.inr (.inl ⟨_, rfl⟩)))⟩))
      case cpoly j => exact .inr (.inr (.inr ⟨trivial, .inr (.inr (.inr (.inr (.inl ⟨j.val, rfl⟩))))⟩))
      case cinit j => exact .inr (.inr (.inr ⟨trivial, .inr (.inr (.inr (.inr (.inr ⟨j.val, rfl⟩))))⟩))
      all_goals exact .inl trivial
    · cases r <;> simp only [writeReg, hl, if_false]
      case word j => exact .inr (.inl ⟨j.val, rfl⟩)
      case standin j => exact .inr (.inr (.inl ⟨j.val, rfl⟩))
      all_goals exact .inl trivial

end Sys2Proof.Machine
end

