-- ==== Sys2Proof/Laws/Step.lean ====
section
/-! SUPPORT. What one step of the machine can do, said once: the inversion lemmas of the turns and of `step`, to be cited
instead of unfolding them. -/

namespace Sys2Proof.Machine

/-- What the phase step of the sequencer can answer: a step of the command in `CMD`, or nothing while idle. -/
theorem sequencerStep_cases (s t : State) (h : sequencerStep s = .next t) :
    (s.phase = .idle ∧ t = s) ∨ (s.phase ≠ .idle ∧ ∃ i, decode s.cmd = .ok i ∧ exec i s = .next t) := by
  unfold sequencerStep State.busy at h
  by_cases hp : s.phase = .idle
  · exact .inl ⟨hp, by simpa [hp] using h.symm⟩
  · refine .inr ⟨hp, ?_⟩
    simp only [bne_iff_ne, ne_eq, hp, not_false_eq_true, if_true] at h
    split at h
    · exact ⟨_, ‹_›, h⟩
    · cases h

/-- What a defined host read can do: only the value returned and the count of draws change. -/
theorem memRead_cases (addr bytes : Nat) (s t : State) (h : memRead addr bytes s = .next t) :
    t = { s with readData := t.readData, draws := t.draws } := by
  unfold memRead at h
  split at h
  · split at h <;> cases h <;> rfl
  · cases h

/-- What a defined host write can do: nothing while a command runs, the acceptance of a command, a register write. -/
theorem memWrite_cases (addr bytes : Nat) (v : Word32) (s t : State) (h : memWrite addr bytes v s = .next t) :
    accessDefined addr bytes = true ∧
    ((s.phase ≠ .idle ∧ t = s) ∨
     (s.phase = .idle ∧ addr = 0 ∧ issue v s = .next t) ∨
     (s.phase = .idle ∧ addr ≠ 0 ∧ t = writeAt addr v s)) := by
  unfold memWrite State.busy at h
  split at h
  · refine ⟨‹_›, ?_⟩
    by_cases hp : s.phase = .idle
    · by_cases ha : addr = 0
      · exact .inr (.inl ⟨hp, ha, by simpa [hp, ha] using h⟩)
      · exact .inr (.inr ⟨hp, ha, by simpa [hp, ha] using h.symm⟩)
    · exact .inl ⟨hp, by simpa [hp] using h.symm⟩
  · cases h

/-- What the acceptance of a command word can do. -/
theorem issue_cases (w : Word32) (s t : State) (h : issue w s = .next t) :
    (∃ i, decode w = .ok i ∧ exec i (accept w s) = .next t) ∨
    ((∃ e, decode w = .error e) ∧ t = raise .illegalCommand (accept w s)) := by
  unfold issue at h
  split at h
  · exact .inl ⟨_, ‹_›, h⟩
  · cases h
    exact .inr ⟨⟨_, ‹_›⟩, rfl⟩

/-- Everything one step of the machine can do, in states after the agenda entry is taken: nothing; a host read; the
acceptance of a command; a register write; a phase step; the reset input. -/
theorem step_cases (s t : State) (h : step s = .next t) :
    ∃ rest, (s.agenda = rest ∨ ∃ u, s.agenda = u :: rest) ∧
      (t = { s with agenda := rest } ∨
       (s.rst = false ∧ t = { s with agenda := rest, readData := t.readData, draws := t.draws }) ∨
       (s.rst = false ∧ s.phase = .idle ∧ ∃ w, s.agenda = .hostWrite 0 4 w :: rest ∧
         issue w { s with agenda := rest } = .next t) ∨
       (s.rst = false ∧ s.phase = .idle ∧ ∃ addr v, s.agenda = .hostWrite addr 4 v :: rest ∧ addr ≠ 0 ∧
         t = writeAt addr v { s with agenda := rest }) ∨
       (s.rst = false ∧ s.phase ≠ .idle ∧ ∃ i, decode s.cmd = .ok i ∧ exec i { s with agenda := rest } = .next t) ∨
       (s.rst = false ∧ s.agenda = .rst true :: rest ∧
         t = resetBlock { cutExchange s with agenda := rest, rst := true }) ∨
       (s.rst = true ∧ s.agenda = .rst false :: rest ∧ t = resetBlock { s with agenda := rest, rst := false })) := by
  have four : ∀ a b, accessDefined a b = true → b = 4 := by
    intro a b hab
    simp only [accessDefined, Bool.and_eq_true, beq_iff_eq] at hab
    exact hab.1.1
  have seq : ∀ rest, s.rst = false → sequencerStep { s with agenda := rest } = .next t →
      t = { s with agenda := rest } ∨
      (s.rst = false ∧ s.phase ≠ .idle ∧ ∃ i, decode s.cmd = .ok i ∧ exec i { s with agenda := rest } = .next t) := by
    intro rest hr hs
    rcases sequencerStep_cases _ _ hs with ⟨-, e⟩ | ⟨hp, hi⟩
    · exact .inl e
    · exact .inr ⟨hr, hp, hi⟩
  unfold step takeTurn at h
  split at h
  · rename_i ha
    refine ⟨[], .inl ha, ?_⟩
    have hs : ({ s with agenda := [] } : State) = s := by rw [← ha]
    split at h
    · cases h
      exact .inl hs.symm
    · rename_i hr
      rw [← hs] at h
      rcases seq [] (by simpa using hr) h with e | e
      · exact .inl e
      · exact .inr (.inr (.inr (.inr (.inl e))))
  · rename_i u rest ha
    split at h
    · rename_i hr
      refine ⟨rest, .inr ⟨u, ha⟩, ?_⟩
      unfold turnInReset at h
      split at h <;> cases h
      · exact .inr (.inr (.inr (.inr (.inr (.inr ⟨hr, ha, rfl⟩)))))
      all_goals exact .inl rfl
    · rename_i hr
      replace hr : s.rst = false := by simpa using hr
      cases u with
      | hostRead addr bytes =>
        exact ⟨rest, .inr ⟨_, ha⟩, .inr (.inl ⟨hr, memRead_cases _ _ _ _ h⟩)⟩
      | hostWrite addr bytes v =>
        refine ⟨rest, .inr ⟨_, ha⟩, ?_⟩
        obtain ⟨hd, hw⟩ := memWrite_cases _ _ _ _ _ h
        have hb := four _ _ hd
        subst hb
        rcases hw with ⟨-, e⟩ | ⟨hp, rfl, e⟩ | ⟨hp, ne, e⟩
        · exact .inl e
        · exact .inr (.inr (.inl ⟨hr, hp, v, ha, e⟩))
        · exact .inr (.inr (.inr (.inl ⟨hr, hp, addr, v, ha, ne, e⟩)))
      | hostWait =>
        simp only [turnRunning, hostWaits] at h
        split at h
        · refine ⟨.hostWait :: rest, .inl ha, ?_⟩
          have hs : ({ s with agenda := .hostWait :: rest } : State) = s := by rw [← ha]
          rw [← hs] at h
          rcases seq _ hr h with e | e
          · exact .inl e
          · exact .inr (.inr (.inr (.inr (.inl e))))
        · exact ⟨rest, .inr ⟨_, ha⟩, .inr (.inl ⟨hr, memRead_cases _ _ _ _ h⟩)⟩
      | sequencer =>
        refine ⟨rest, .inr ⟨_, ha⟩, ?_⟩
        rcases seq rest hr h with e | e
        · exact .inl e
        · exact .inr (.inr (.inr (.inr (.inl e))))
      | rst level =>
        refine ⟨rest, .inr ⟨_, ha⟩, ?_⟩
        cases level
        · cases h
          exact .inl rfl
        · cases h
          exact .inr (.inr (.inr (.inr (.inr (.inl ⟨hr, ha, rfl⟩)))))

end Sys2Proof.Machine
end

