-- ==== Sys2Proof/Tests/Slice0.lean ====
section
/-! SUPPORT. Tests with values from 95_test_vectors.md and from the worked examples of the rules, the ill-formed words
that WellFormed refuses, and for each statement with hypotheses a state and operands that meet them. -/

namespace Sys2Proof.Tests

open Sys2Proof.Machine

-- One theorem after another: the kernel evaluations below would otherwise wait for each other in many threads.
set_option Elab.async false

/-! ### Helpers -/

/-- A block configured as `cfg(wlen, cw, cpoly, cinit)`, without the table, with a word in `WORD`. -/
def cfg (wlen cw cpoly cinit word : Nat) : State :=
  { State.reset with
    lifecycle := .ready
    wlen := BitVec.ofNat 16 wlen
    cw := BitVec.ofNat 8 cw
    cpoly := cpoly
    cinit := cinit
    word := word
    ctab := none }

/-- A block before CONFIGURE, without the table, with these configuration fields. -/
def unconfigured (wlen cw cpoly cinit : Nat) : State :=
  { cfg wlen cw cpoly cinit 0 with lifecycle := .unconfigured }

/-- A buffer of the reference size that begins with the frame `f`. -/
def bufferOf (f : Frame) : Buffer := f ++ List.replicate (16 - f.length) 0

/-- The state a result holds. -/
def after (r : Result) : State :=
  match r with
  | .next t => t
  | .fault _ => State.reset
  | .refused _ => State.reset

/-- A result is a next state. -/
def isNext (r : Result) : Bool :=
  match r with
  | .next _ => true
  | .fault _ => false
  | .refused _ => false

/-- One turn of the machine. -/
def turn (t : Turn) (s : State) : Result := step { s with agenda := [t] }

/-- A configured block with word `0xDEADBEEF`: the configuration of vectors S5b, V40 to V43, V54. -/
def demo : State := cfg 32 8 0xA2 0 0xDEADBEEF

/-- The same block, not configured. -/
def demoUnconfigured : State := unconfigured 32 8 0xA2 0

/-- The same block, failed. -/
def demoFailed : State := { demoUnconfigured with lifecycle := .failed }

/-- The same block in phase ENCODE of a command. -/
def demoEncode (i : Instr) : State := { demo with cmd := encode i, phase := .encode }

/-- The same block in phase EXCHANGE of WRITE or READ with `C = 1`, the outbound frame built for word 0, and the answer
of the bus. -/
def demoExchange (i : Instr) (answer : Frame) : State :=
  { demo with word := 0, cmd := encode i, phase := .exchange, txlen := 5, busIn := answer }

/-- The same block in phase REASSEMBLE of READ, with these frames in the buffers. -/
def demoReassemble (c : Bool) (tx rx : Frame) : State :=
  { demo with
    cmd := encode (.read c false), phase := .reassemble
    txf := bufferOf tx, txlen := tx.length
    rxf := bufferOf rx, rxlen := rx.length }

/-- The same state with another word in `WORD`. -/
def withWord (w : Nat) (s : State) : State := { s with word := w }

/-- The same state with no bus present. -/
def noBus (s : State) : State := { s with nobus := true }

/-- A block in phase CHECK of READ with a full word. -/
def checking (s : State) (full : Nat) : State :=
  { s with cmd := encode (.read true false), phase := .check, full := full }

/-! ### Ill-formed words: one for each check of WellFormed (30_encoding.md R82, R84) -/

theorem test_wf_operation_zero : wordWellFormed 0x00000000#32 = false := by decide
theorem test_wf_operation_eight : wordWellFormed 0x00000008#32 = false := by decide
theorem test_wf_operation_fifteen : wordWellFormed 0x0000000F#32 = false := by decide
theorem test_wf_reserved_low : wordWellFormed 0x00000041#32 = false := by decide
theorem test_wf_reserved_high : wordWellFormed 0x80000001#32 = false := by decide
theorem test_wf_c_on_gencrc : wordWellFormed 0x00000015#32 = false := by decide
theorem test_wf_v_on_encode : wordWellFormed 0x00000022#32 = false := by decide
theorem test_wf_data_on_crcstart : wordWellFormed 0x00000106#32 = false := by decide
theorem test_wf_accepts : wordWellFormed 0x0000FF07#32 = true := by decide

theorem test_reject_operation : decode 0x00000008#32 = .error .operation := by decide
theorem test_reject_reserved : decode 0x00000083#32 = .error .reservedBit := by decide
theorem test_reject_field : decode 0x00000015#32 = .error .field := by decide

/-! ### Decoding: words written out from the patterns of R83, bit 31 first -/

theorem test_decode_configure : decode 0b00000000000000000000000000000001#32 = .ok .configure := by decide
theorem test_decode_encode : decode 0b00000000000000000000000000010010#32 = .ok (.encode true) := by decide
theorem test_decode_write : decode 0b00000000000000000000000000100011#32 = .ok (.write false true) := by decide
theorem test_decode_read : decode 0b00000000000000000000000000010100#32 = .ok (.read true false) := by decide
theorem test_decode_gencrc : decode 0b00000000000000000000000000000101#32 = .ok .genCrc := by decide
theorem test_decode_crcstart : decode 0b00000000000000000000000000000110#32 = .ok .crcStart := by decide
/-- V36: the command `0000DE07` takes the byte `DE`. -/
theorem test_decode_crcbyte : decode 0b00000000000000001101111000000111#32 = .ok (.crcByte 0xDE) := by decide
theorem test_table_word : decodeTableWord 32 0x00000014 = some (.read true false) := by decide

/-! ### Functions: S1 to S3, V2 to V5, V31 to V33, V44, V45, V50 to V52 -/

theorem test_crc_s1 : computeCrc [0xDE, 0xAD, 0xBE, 0xEF] 8 0xAB 0 = 0x88 := by decide +kernel
theorem test_crc_s2 : computeCrc [0xDE, 0xAD, 0xBE, 0xEF] 16 0xABCD 0 = 0xD0EF := by decide +kernel
theorem test_crc_s3 : computeCrc [0xDE, 0xAD, 0xBE, 0xEF] 32 0xABCD1234 0 = 0xF0F92A68 := by decide +kernel
/-- V1: the first bit step of the trace. -/
theorem test_bit_v1 : crcBit 8 0xAB 0x00 1 = 0xAB ∧ crcBit 8 0xAB 0xAB 1 = 0x56 := by decide
theorem test_byte_v2 : crcByte 5 0x09 0x09 0x31 = 0x12 := by decide +kernel
theorem test_byte_v3 : crcByte 1 1 0 0x80 = 1 ∧ crcByte 1 1 1 0xFF = 1 := by decide +kernel
theorem test_crc_v4 : computeCrc [0xDE] 16 0 0xFFFF = 0xFF00 := by decide +kernel
/-- V21 and V30: an initial value that is not 0; the other convention would give `E5CC`. -/
theorem test_crc_v21 :
    computeCrc [0x31, 0x32, 0x33, 0x34, 0x35, 0x36, 0x37, 0x38, 0x39] 16 0x1021 0xFFFF = 0x29B1 := by decide +kernel
theorem test_crc_v20o :
    computeCrc [0x31, 0x32, 0x33, 0x34, 0x35, 0x36, 0x37, 0x38, 0x39] 64 0x42F0E1EBA9EA3693 0
      = 0x6C40DF5F0B497347 := by decide +kernel
theorem test_table_v31 : tableEntry 12 0x80F 0x80 = 0xD05 ∧ tableEntry 5 0x09 0xFF = 0x13 := by decide +kernel
theorem test_table_step_v32 : crcByteT (tableEntry 16 0x1021) 16 0xFFFF 0x31 = 0xC782 := by decide +kernel
theorem test_table_step_v33 : crcByteT (tableEntry 5 0x09) 5 0x09 0x31 = 0x12 := by decide +kernel
theorem test_be_v50 : be 0xDEADBEEF 8 = [0, 0, 0, 0, 0xDE, 0xAD, 0xBE, 0xEF] ∧ be 0 0 = [] := by decide +kernel
theorem test_int_v50 : intOf [0xDE, 0xAD, 0xBE, 0xEF] = 0xDEADBEEF ∧ intOf [0, 1] = 1 := by decide +kernel
theorem test_encode_v51 :
    encodeFrame 0xFFFFFFFF 4 false 8 0xA2 0 = some [0xFF, 0xFF, 0xFF, 0xFF] ∧
    encodeFrame 0x100000000 4 false 8 0xA2 0 = none ∧ encodeFrame 0x100 1 true 8 0xA2 0 = none := by decide +kernel
theorem test_encode_v52_pad :
    encodeFrame 0xDEADBEEF 4 true 12 0x80F 0 = some [0xDE, 0xAD, 0xBE, 0xEF, 0x08, 0xC4] := by decide +kernel
theorem test_encode_v52_width33 :
    encodeFrame 0x1234 2 true 33 0x1ABCD1234 0x1FFFFFFFF
      = some [0x12, 0x34, 0x00, 0xA2, 0x0C, 0x36, 0x90] := by decide +kernel
theorem test_check_v44 :
    crcCheck 0xCAFEF114 2 12 0x80F 0
      = { crcrx := 0x114, payload := 0xCAFE, recomputed := 0x114, mismatch := false } := by decide +kernel
theorem test_check_v45 :
    crcCheck (reassemble [0x00, 0x00, 0x1D, 0x0F] [0xBE, 0xEF, 0x2C, 0xCC]) 2 16 0x1021 0xFFFF
      = { crcrx := 0x3DCF, payload := 0xBEEF, recomputed := 0x2CCC, mismatch := true } := by decide +kernel

/-! ### Commands -/

/-- V60, row 1: `STATUS = 0006`. -/
theorem test_configure_ready : (after (exec .configure demoUnconfigured)).status = 0x0006#32 := by decide
/-- V60, rows 6 and 12: `STATUS = 0308`. -/
theorem test_configure_failed :
    (after (exec .configure (unconfigured 32 8 0x100 0))).status = 0x0308#32 ∧
    (after (exec .configure (unconfigured 72 8 0xA2 0))).status = 0x0308#32 := by decide
/-- V54: `TXF = [DE, AD, BE, EF, D2]`, `TXLEN = 5`, `CREG = D2`, register `0x80` reads `EFBEADDE`. -/
theorem test_encode_crc :
    (after (exec (.encode true) (demoEncode (.encode true)))).txFrame = [0xDE, 0xAD, 0xBE, 0xEF, 0xD2] ∧
    (after (exec (.encode true) (demoEncode (.encode true)))).creg = 0xD2 ∧
    (after (exec (.encode true) (demoEncode (.encode true)))).valueAt 0x80 = 0xEFBEADDE#32 := by decide +kernel
/-- V54: without CRC `TXLEN = 4` and `CREG` is unchanged. -/
theorem test_encode_plain :
    (after (exec (.encode false) (demoEncode (.encode false)))).txFrame = [0xDE, 0xAD, 0xBE, 0xEF] ∧
    (after (exec (.encode false) (demoEncode (.encode false)))).creg = 0 := by decide +kernel
/-- V40: `RXF = in`, `RXLEN = 5`; a WRITE ends there. -/
theorem test_write_exchange :
    (after (exec (.write true false) (demoExchange (.write true false) [0x12, 0x34, 0x56, 0x78, 0xFE]))).rxFrame
      = [0x12, 0x34, 0x56, 0x78, 0xFE] ∧
    (after (exec (.write true false) (demoExchange (.write true false) [0x12, 0x34, 0x56, 0x78, 0xFE]))).status
      = 0x0006#32 := by decide +kernel
/-- V48: outbound `[80, 00, 00, 00, E6]`, answer `[00, 34, 56, 78, 00]`: `FULL = 80345678E6`. -/
theorem test_read_reassemble :
    (after (exec (.read true false)
      (demoReassemble true [0x80, 0, 0, 0, 0xE6] [0, 0x34, 0x56, 0x78, 0]))).full = 0x80345678E6 := by decide +kernel
/-- V48: `CRCRX = E6`, `PAYLOAD = 80345678`, `CRCCALC = CREG = 50`, `CRCMM = 1`, `STATUS = 1006`. -/
theorem test_read_check :
    let t := after (exec (.read true false) (checking demo 0x80345678E6))
    t.crcrx = 0xE6 ∧ t.payload = 0x80345678 ∧ t.crccalc = 0x50 ∧ t.creg = 0x50 ∧ t.status = 0x1006#32 := by
  decide +kernel
/-- V34: `cfg(32, 12, 80F, 0)` leaves `CREG = 8C4`. -/
theorem test_gencrc :
    (after (exec .genCrc { cfg 32 12 0x80F 0 0xDEADBEEF with phase := .encode })).creg = 0x8C4 := by decide +kernel
/-- V35: a word of two bytes with `cfg(8, 8, AB, 0)` raises OverflowError. -/
theorem test_gencrc_overflow :
    (after (exec .genCrc { cfg 8 8 0xAB 0 0xABCD with phase := .encode })).err = .overflowError := by decide +kernel
/-- R108: with `CW = 16` and `CINIT = 0xFFFF`, CRCSTART leaves `CREG = 0xFFFF`. -/
theorem test_crcstart : (after (exec .crcStart (cfg 32 16 0x1021 0xFFFF 0))).creg = 0xFFFF := by decide
/-- V36: from `CREG = 74` the byte `AD` gives `73`. -/
theorem test_crcbyte :
    (after (exec (.crcByte 0xAD) { cfg 32 8 0xAB 0 0 with creg := 0x74 })).creg = 0x73 := by decide +kernel
/-- P5, step 2: a WRITE before CONFIGURE gives `STATUS = 0500`. -/
theorem test_bad_state : (after (turn (.hostWrite 0x00 4 0x00000003#32) State.reset)).status = 0x0500#32 := by decide

/-! ### Host accesses and the parser -/

/-- R62, R65: a register of two limbs, and a byte lane of the stand-in bytes. -/
theorem test_limb_registers :
    let s : State := { demo with creg := 0x0123456789ABCDEF, standin := bufferOf [1, 2, 3, 4, 5, 6] }
    s.valueAt 0x30 = 0x89ABCDEF#32 ∧ s.valueAt 0x34 = 0x01234567#32 ∧ s.valueAt 0xA4 = 0x00000605#32 := by
  decide +kernel

theorem test_narrow_access_refused : turn (.hostRead 0x04 2) demo = .refused .undefinedAccess := by rfl
theorem test_misaligned_access_refused : turn (.hostWrite 0x52 4 0) demo = .refused .undefinedAccess := by rfl
theorem test_outside_access_refused : turn (.hostRead 0x100 4) demo = .refused .undefinedAccess := by rfl
/-- P4: with `WLEN = 16`, register `0x18` reads `00080010`. -/
theorem test_wlen_register : (cfg 16 12 0x80F 0 0).valueAt 0x18 = 0x00080010#32 := by decide
theorem test_parse_accepts :
    parseInput ['0', 'X', 'a', 'b', 'c', 'd'] = some 0xABCD ∧ parseInput ['0', '0', '7'] = some 7 := by decide
/-- V55: the empty string, a bare `0x`, a sign, a space, hexadecimal digits without the prefix. -/
theorem test_parse_refuses :
    parseInput [] = none ∧ parseInput ['0', 'x'] = none ∧ parseInput ['-', '1'] = none ∧
    parseInput [' ', '1', '2'] = none ∧ parseInput ['A', 'B', 'C', 'D'] = none := by decide

/-! ### The hypotheses of the statements are met, in the order of the statements -/

theorem witness_crcBit :
    (1 ≤ 1 ∧ 1 < 2 ^ 1 ∧ 1 < 2 ^ 1 ∧ 1 < 2) ∧ (1 ≤ 64 ∧ 0 < 2 ^ 64 ∧ 2 ^ 64 - 1 < 2 ^ 64 ∧ 0 < 2) ∧
    (1 < 2 ∧ 1 < 2 ∧ 0 < 2) := by decide
theorem witness_computeCrcProperties :
    1 ≤ 1 ∧ 1 < 2 ^ 1 ∧ 1 < 2 ^ 1 ∧ 0 < 2 ^ 1 ∧ 255 < 2 ^ (8 * 1) ∧ 1 ≤ 1 ∧ 1 ≤ 2 := by decide
theorem witness_tableHoldsByteSteps :
    (1 ≤ 1 ∧ 1 < 2 ^ 1 ∧ 0 < 256 ∧ 1 ≤ 32) ∧ (2 ^ 64 - 1 < 2 ^ 64 ∧ 255 < 256 ∧ 64 ≤ 64) := by
  decide
theorem witness_tableStep : 8 ≤ 8 ∧ 7 < 8 ∧ (1 ≤ 7 ∧ 127 < 2 ^ 7 ∧ 127 < 2 ^ 7) := by decide
/-- BlockEngineComputesCrc, without the table. -/
theorem witness_demo_inv : demo.Inv ∧ demo.lifecycle = .ready ∧ 255 < 2 ^ demo.cw.toNat := by decide +kernel
/-- BlockEngineComputesCrc, with the table. -/
theorem witness_demo_inv_with_table :
    ({ demo with ctab := some (buildTable 8 0xA2) } : State).Inv :=
  ⟨by decide, fun _ => by decide, fun _ => .inr rfl, by decide, by decide, by decide, by decide⟩
theorem witness_bigEndianBytes : 255 < 2 ^ (8 * 1) ∧ 0 < 1 ∧ 0 ≤ 1 ∧ 0 < 2 ^ (8 * 0) ∧ 1 ≤ 1 := by decide
theorem witness_codecRoundTrip : 255 < 2 ^ (8 * 1) ∧ 0 < 2 ^ (8 * 0) := by decide
/-- EncodeFrameRule and EncodeFrameProperties, at both sides of the overflow edge. -/
theorem witness_encodeFrame :
    1 ≤ 1 ∧ 1 ≤ 12 ∧ 0x80F < 2 ^ 12 ∧ 0xFFF < 2 ^ 12 ∧ 2 ^ (8 * 1) ≤ 256 ∧ 255 < 2 ^ (8 * 1) := by decide
/-- EncodeFrameProperties and OwnFrameChecks. -/
theorem witness_encodeFrameProperties :
    encodeFrame 0xCAFE 2 true 12 0x80F 0 = some [0xCA, 0xFE, 0x01, 0x14] := by decide +kernel
theorem witness_reassemble :
    ([0x0F] : Frame).length = ([0xF0] : Frame).length ∧ 0 < ([0xF0] : Frame).length := by decide
theorem witness_crcCheck :
    (1 ≤ 12 ∧ 0x80F < 2 ^ 12 ∧ 0 < 2 ^ 12 ∧ 0xFFFFFFFF < 2 ^ (8 * (2 + (12 + 7) / 8))) ∧
    15 < 2 ^ (8 * ((12 + 7) / 8) - 12) := by decide
/-- OverlayConsequences. -/
theorem witness_overlay :
    ([0, 0] : Frame).length = ([1, 2] : Frame).length ∧ (∀ b ∈ ([0, 0] : Frame), b = 0) ∧
    (intOf [1]).testBit 0 = true ∧
    encodeFrame 0xDEADBEEF 4 true 8 0xA2 0 = some [0xDE, 0xAD, 0xBE, 0xEF, 0xD2] ∧
    ([0, 0, 0, 0, 0] : Frame).length = 5 ∧ (∀ b ∈ ([0, 0, 0, 0, 0] : Frame), b = 0) := by decide +kernel
theorem witness_legalWord : decode 0x0000FF07#32 = .ok (.crcByte 0xFF) := by decide
theorem witness_opcodeMap :
    0x00000012#32 &&& rowMask (.encode true) = rowMatch (.encode true) ∧
    0x00000012#32 &&& rowMask (.encode false) = rowMatch (.encode false) ∧
    decode 0x00000012#32 = .ok (.encode true) ∧ decode 0x00000033#32 = .ok (.write true true) ∧
    decode 0x00000024#32 = .ok (.read false true) ∧ decode 0x0000DE07#32 = .ok (.crcByte 0xDE) := by decide
theorem witness_stepRuns :
    let r := Instr.read true false
    (demo.rst = false ∧ demo.phase = .idle ∧ decode (encode r) = .ok r) ∧
    ((demoEncode r).rst = false ∧ (demoEncode r).phase ≠ .idle ∧ decode (demoEncode r).cmd = .ok r ∧
      (demoEncode r).agenda = []) := by decide
theorem witness_illegalWord :
    let s : State := { demo with agenda := [.hostWrite 0x00 4 0x00010007#32] }
    s.rst = false ∧ s.phase = .idle ∧ s.agenda = .hostWrite 0x00 4 0x00010007#32 :: [] ∧
      wordWellFormed 0x00010007#32 = false := by decide
theorem witness_lifecycleGate :
    Instr.crcStart ≠ .configure ∧
    (demo.phase = .idle ∧ allowedIn .configure demo.lifecycle = false) ∧
    (demoFailed.phase = .idle ∧ allowedIn (.crcByte 0) demoFailed.lifecycle = false) ∧
    (demoUnconfigured.phase = .idle ∧ allowedIn .genCrc demoUnconfigured.lifecycle = false) := by decide
theorem witness_overflow :
    let s : State := { demoEncode .genCrc with word := 0x100000000 }
    runsThrough .genCrc .encode = true ∧ s.phase = .encode ∧ 2 ^ (8 * (s.wlen.toNat / 8)) ≤ s.word := by
  decide +kernel
theorem witness_configure :
    (demoUnconfigured.phase = .idle ∧ demoUnconfigured.lifecycle = .unconfigured ∧
      demoUnconfigured.validConfig = true) ∧
    ((unconfigured 64 64 (2 ^ 64 - 1) (2 ^ 64 - 1)).validConfig = true) ∧
    ((unconfigured 8 65 1 0).phase = .idle ∧ (unconfigured 8 65 1 0).lifecycle = .unconfigured ∧
      (unconfigured 8 65 1 0).validConfig = false) := by decide +kernel
/-- CrcStartCompletes, CrcByteCompletes and EveryCommandEndsIdle, and the first clauses of GenCrcCompletes,
EncodeCompletes, WriteCompletes and ReadCompletes. -/
theorem witness_crcStart : demo.phase = .idle ∧ demo.lifecycle = .ready := by decide
/-- The ENCODE clauses of GenCrcCompletes, EncodeCompletes, WriteCompletes and ReadCompletes. -/
theorem witness_encode_phase :
    ∀ i ∈ [Instr.genCrc, .encode true, .encode false, .write true false, .read false true],
      (demoEncode i).Inv ∧ (demoEncode i).phase = .encode ∧
      (demoEncode i).word < 2 ^ (8 * (demoEncode i).bc) := by decide +kernel
/-- The same, with the largest word that fits. -/
theorem witness_largest_word :
    (withWord 0xFFFFFFFF (demoEncode .genCrc)).Inv ∧ (withWord 0xFFFFFFFF (demoEncode .genCrc)).phase = .encode ∧
      (withWord 0xFFFFFFFF (demoEncode .genCrc)).word < 2 ^ (8 * (withWord 0xFFFFFFFF (demoEncode .genCrc)).bc) := by
  decide +kernel
/-- The EXCHANGE clauses of WriteCompletes and ReadCompletes, with a bus. -/
theorem witness_exchange_phase :
    ∀ i ∈ [Instr.write true false, .read true true],
      (demoExchange i []).Inv ∧ (demoExchange i []).phase = .exchange := by decide +kernel
/-- The same, with no bus. -/
theorem witness_exchange_no_bus :
    ∀ i ∈ [Instr.write true false, .read true true],
      (noBus (demoExchange i [])).Inv ∧ (noBus (demoExchange i [])).phase = .exchange := by decide +kernel
/-- ReadCompletes, the REASSEMBLE clause with `C = 0`. -/
theorem witness_reassemble_plain :
    (demoReassemble false [1, 2, 3, 4] [5, 6, 7, 8]).Inv ∧
      decode (demoReassemble false [1, 2, 3, 4] [5, 6, 7, 8]).cmd = .ok (.read false false) := by decide +kernel
/-- ReadCompletes, the REASSEMBLE clause with `C = 1`. -/
theorem witness_reassemble_crc :
    (demoReassemble true [1, 2, 3, 4, 5] [5, 6, 7, 8, 9]).Inv ∧
      decode (demoReassemble true [1, 2, 3, 4, 5] [5, 6, 7, 8, 9]).cmd = .ok (.read true false) := by decide +kernel
/-- ReadCompletes, the CHECK clause, with the largest full word. -/
theorem witness_check_phase :
    (checking demo 0xFFFFFFFFFF).Inv ∧ (checking demo 0xFFFFFFFFFF).phase = .check := by decide +kernel
/-- EncodeAsOneStep, WriteAsOneStep, ReadAsOneStep and StreamedCrcIsComputeCrc. -/
theorem witness_one_step_fits :
    demo.Inv ∧ demo.phase = .idle ∧ demo.lifecycle = .ready ∧ demo.word < 2 ^ (8 * demo.bc) ∧
      demo.nobus = false := by decide +kernel
/-- The same, with the smallest word that does not fit. -/
theorem witness_one_step_overflows :
    (withWord 0x100000000 demo).Inv ∧ (withWord 0x100000000 demo).phase = .idle ∧
      (withWord 0x100000000 demo).lifecycle = .ready ∧
      2 ^ (8 * (withWord 0x100000000 demo).bc) ≤ (withWord 0x100000000 demo).word := by decide +kernel
/-- WriteAsOneStep and ReadAsOneStep with no bus. -/
theorem witness_one_step_no_bus :
    (noBus demo).Inv ∧ (noBus demo).nobus = true ∧ (noBus demo).word < 2 ^ (8 * (noBus demo).bc) := by
  decide +kernel
theorem witness_stepsCompose :
    let s : State := { demo with agenda := [.hostWrite 0x00 4 0x00000014#32, .hostWait] }
    s.rst = false ∧ s.phase = .idle ∧ isNext (runWord 0x00000014#32 { s with agenda := [.hostWait] }) = true := by
  decide +kernel
theorem witness_failed : demoFailed.phase = .idle ∧ demoFailed.lifecycle = .failed := by decide
theorem witness_invariantKept :
    demo.Inv ∧ isNext (turn (.hostWrite 0x00 4 0x00000005#32) demo) = true ∧
    isNext (turn (.rst true) demo) = true := by decide +kernel
theorem witness_definedTurns :
    demo.Inv ∧ Turn.defined (.hostRead 0xFC 4) = true ∧ Turn.defined (.hostWrite 0x00 4 0) = true ∧
    Turn.defined .hostWait = true := by decide +kernel
theorem witness_phaseMoves :
    (isNext (exec .genCrc demo) = true ∧ demo.phase = .idle) ∧
    (isNext (exec .genCrc (demoEncode .genCrc)) = true ∧ (demoEncode .genCrc).phase = .encode) := by decide +kernel
theorem witness_configurationIsLocked :
    (demo.lifecycle ≠ .unconfigured ∧ demo.rst = false ∧ demo.phase = .idle) ∧
    isNext (turn (.hostWrite 0x10 4 0) demo) = true ∧ isNext (turn (.hostWrite 0x2C 4 0) demo) = true ∧
    (0x10 ≤ 0x2C ∧ 0x2C ≤ 0x2C ∧ 0x2C % 4 = 0) := by decide
theorem witness_wordChanges :
    (after (turn (.hostWrite 0x50 4 1) demo)).word ≠ demo.word ∧
    (after (turn (.hostWrite 0x5C 4 1) demo)).word ≠ demo.word := by decide

/-- Each premise of the statement on the writers is met by some step, in its order. -/
theorem witness_writers :
    (after (turn .sequencer (demoEncode (.encode true)))).txlen ≠ (demoEncode (.encode true)).txlen ∧
    (after (turn .sequencer (demoExchange (.write true false) []))).rxlen ≠ (demoExchange (.write true false) []).rxlen ∧
    (after (turn .sequencer (demoReassemble true [1, 2, 3, 4, 5] [5, 6, 7, 8, 9]))).full ≠ 0 ∧
    (after (turn .sequencer (demoReassemble false [1, 2, 3, 4] [5, 6, 7, 8]))).payload ≠ 0 ∧
    (after (turn .sequencer (checking demo 0x80345678E6))).crcrx ≠ 0 ∧
    (after (turn .sequencer (demoEncode .genCrc))).creg ≠ 0 ∧
    ((after (turn .sequencer (checking demo 0x80345678E6))).crcmm = true ∧ demo.crcmm = false) ∧
    ((after (turn .sequencer { demoExchange (.write true false) [] with nobus := true })).mhw = true ∧
      demo.mhw = false) ∧
    (after (turn (.hostWrite 0x00 4 1) demoUnconfigured)).lifecycle ≠ .unconfigured ∧
    (after (turn (.hostWrite 0xA0 4 1) demo)).standin ≠ demo.standin ∧
    (after (turn (.hostWrite 0x00 4 5) demo)).cmd ≠ demo.cmd := by decide +kernel
theorem witness_accepts : ({ demo with agenda := [.hostWrite 0x00 4 5] } : State).accepts :=
  ⟨rfl, rfl, 5, [], rfl⟩

/-- The premises on the flags in the same statement: `DONE` set, `DONE` and `ERR` cleared, `ERR` set at acceptance and in
phase ENCODE, `CRCMM` and `MHW` cleared. -/
theorem witness_flags :
    ((after (turn .sequencer (demoEncode .genCrc))).done = true ∧ (demoEncode .genCrc).done = false) ∧
    ((after (turn (.hostWrite 0x00 4 5) { demo with done := true })).done = false) ∧
    ((after (turn (.hostWrite 0x00 4 5) { demo with err := .badState })).err = .none) ∧
    ((after (turn (.hostWrite 0x00 4 1) demo)).err = .badState ∧ demo.err = .none) ∧
    ((after (turn .sequencer (withWord 0x100000000 (demoEncode .genCrc)))).err = .overflowError) ∧
    ((after (turn (.hostWrite 0x00 4 5) { demo with crcmm := true })).crcmm = false) ∧
    ((after (turn (.hostWrite 0x00 4 5) { demo with mhw := true })).mhw = false) := by decide +kernel

/-- A state with `DONE`, `CRCMM` and `MHW` set meets the invariant. -/
theorem witness_flags_inv : ({ demo with done := true, crcmm := true, mhw := true } : State).Inv := by decide +kernel
/-- So does a state with `ERR` set. -/
theorem witness_err_inv : ({ demo with err := .overflowError } : State).Inv := by decide +kernel
theorem witness_oneExchange :
    isNext (turn .sequencer (demoExchange (.write true false) [1, 2])) = true ∧
    (after (turn .sequencer (demoExchange (.write true false) [1, 2]))).busLog ≠ [] := by decide +kernel
theorem witness_anyBusAnswer :
    let s := demoExchange (.write true false) []
    s.phase = .exchange ∧ s.nobus = false ∧ s.txlen ≤ s.sizes.nfMax ∧
      ([1, 2, 3, 4, 5] : Frame).length = s.txlen := by decide
theorem witness_standIn :
    let s : State := { demoExchange (.read true false) [] with nobus := true, txlen := 16 }
    s.phase = .exchange ∧ s.nobus = true ∧ s.txlen ≤ s.sizes.nfMax ∧ s.standin.length = s.sizes.nfMax ∧
      s.standin = List.replicate s.sizes.nfMax 0 := by decide
theorem witness_reads :
    let s : State := { demo with agenda := [.hostRead 0xFC 4] }
    (s.rst = false ∧ s.agenda = .hostRead 0xFC 4 :: [] ∧ 0xFC % 4 = 0 ∧ 0xFC < 0x100 ∧ s.phase = .idle ∧ 0xB0 ≤ 0xFC) ∧
    (0x70 ≤ 0x7C ∧ 0x7C ≤ 0x7C ∧ 0x7C % 4 = 0) := by decide
theorem witness_writes :
    let s : State := { demoUnconfigured with agenda := [.hostWrite 0xFC 4 7] }
    (s.rst = false ∧ s.phase = .idle ∧ s.agenda = .hostWrite 0xFC 4 7 :: [] ∧ 0xFC % 4 = 0 ∧ 0x04 ≤ 0xFC ∧ 0xFC < 0x100) ∧
    s.lifecycle = .unconfigured ∧
    (0x04 ≤ 0x04 ∧ 0x0C ≤ 0x0C ∧ 0x30 ≤ 0x30 ∧ 0x4C ≤ 0x4C ∧ 0x60 ≤ 0x60 ∧ 0x9C ≤ 0x9C ∧ 0xB0 ≤ 0xB0) ∧
    (0x50 % 4 = 0 ∧ 0x5C ≤ 0x5C ∧ 0xA0 % 4 = 0 ∧ 0xAC ≤ 0xAC ∧ 0xA0 ≠ 0x50) ∧ (0x2C % 4 = 0 ∧ 0x10 ≠ 0x2C) ∧
    (s.sizes.nbMax = 8 ∧ s.sizes.cwMax = 64 ∧ s.standin.length = 16) := by decide
theorem witness_busyWrites :
    let s : State := { demoEncode .genCrc with agenda := [.hostWrite 0x00 4 1] }
    s.rst = false ∧ s.phase ≠ .idle ∧ s.agenda = .hostWrite 0x00 4 1 :: [] := by decide
theorem witness_otherAccesses :
    let s : State := { demo with agenda := [.hostRead 0x100 4] }
    s.rst = false ∧ s.agenda = .hostRead 0x100 4 :: [] ∧ 0x100 ≤ 0x100 ∧ 0x52 % 4 ≠ 0 ∧ 2 ≠ 4 := by decide
theorem witness_hostCannotDisturb :
    let s : State := { demoEncode .genCrc with agenda := [.hostRead 0x00 4, .hostWrite 0xFC 4 7] ++ [.sequencer] }
    s.rst = false ∧ s.phase ≠ .idle ∧ s.agenda = [.hostRead 0x00 4, .hostWrite 0xFC 4 7] ++ [.sequencer] ∧
      0x00 % 4 = 0 ∧ 0xFC % 4 = 0 ∧ 0xFC < 0x100 := by decide
theorem witness_reset :
    (({ demo with rst := true } : State).rst = true ∧ Turn.sequencer ≠ .rst false ∧ Turn.rst true ≠ .rst false) ∧
    demo.rst = !true ∧ ({ demo with rst := true } : State).rst = !false := by decide
theorem witness_hostPresents :
    (parseInput ['-'] = none) ∧
    parseInput ('0' :: 'x' :: '1' :: List.replicate 32 '0') = some (2 ^ 128) ∧
    parseInput ('0' :: 'x' :: List.replicate 32 'f') = some (2 ^ 128 - 1) ∧
    ({ demo with agenda := wordWrites 5 ++ [] } : State).agenda = wordWrites 5 ++ [] ∧
    (demo.sizes.nfMax ≤ 16 ∧ demo.word < 2 ^ (8 * demo.sizes.nfMax) ∧ 5 < 2 ^ (8 * demo.sizes.nfMax)) := by decide +kernel
/-- R186, R187: `--crc` alone and `--verbose` alone. -/
theorem test_command_words :
    spiWrite Config.reference ['7'] true false = .ok (wordWrites 7 ++ [.hostWrite 0x00 4 0x13, .hostWait]) ∧
    spiRead Config.reference ['7'] false true = .ok (wordWrites 7 ++ [.hostWrite 0x00 4 0x24, .hostWait]) := by decide +kernel
theorem witness_benchmark :
    toolWord Config.reference ['-'] = .error .formatError ∧ toolWord Config.reference ['7'] = .ok 7 ∧
    benchmarkSpi Config.reference 1 ['7'] false false = .ok
      (wordWrites 7 ++ [.hostWrite 0x00 4 0x03, .hostWait] ++
        (wordWrites 7 ++ [.hostWrite 0x00 4 0x04, .hostWait])) := by decide +kernel
theorem witness_startUp :
    let g : ToolConfig :=
      { busidx := 1, devidx := 2, ckmode := 3, nobus := true, ckrate := 4, wlen := 32, cw := 8, cpoly := 0xA2, cinit := 0 }
    let s : State := { demoUnconfigured with agenda := startUp g ++ [] }
    (s.rst = false ∧ s.phase = .idle ∧ s.lifecycle = .unconfigured ∧ s.agenda = startUp g ++ []) ∧
    (s.cpoly < 2 ^ 64 ∧ s.cinit < 2 ^ 64 ∧ g.cpoly < 2 ^ min 64 s.sizes.cwMax ∧ g.cinit < 2 ^ min 64 s.sizes.cwMax) := by
  decide +kernel
/-- StartUpConfigures, the start of a process on a block that runs a command of an earlier one. -/
theorem witness_processStart :
    let g : ToolConfig :=
      { busidx := 1, devidx := 2, ckmode := 3, nobus := true, ckrate := 4, wlen := 32, cw := 8, cpoly := 0xA2, cinit := 0 }
    ({ demoEncode .genCrc with agenda := shutDown ++ processStart g ++ [] } : State).agenda
      = shutDown ++ processStart g ++ [] := rfl
theorem witness_parser :
    (∀ d ∈ ['4', '2'], (decDigit d).isSome = true) ∧ parseInput ['4', '2'] = some 42 ∧ decDigit '9' = some 9 ∧
    parseInput ['0', 'x', 'A'] = some 10 ∧ hexDigit 'f' = some 15 ∧ ['4', '2'] ≠ [] :=
  ⟨by simp [decDigit], by decide, by decide, by decide, by decide, by decide⟩
theorem witness_hostPrints :
    (demo.err = .none ∧ demo.full < 2 ^ 128) ∧ ({ demo with err := .badState } : State).err ≠ .none ∧
    toolWord demo.sizes ['-'] = .error .formatError := by decide
/-- HostPrintsFull, the benchmark: a word that fits four bytes, and the smallest one that does not. -/
theorem witness_benchmark_outcome :
    (demo.Inv ∧ demo.phase = .idle ∧ demo.lifecycle = .ready ∧ toolWord demo.sizes ['7'] = .ok 7 ∧ 7 < 2 ^ (8 * demo.bc)) ∧
    (toolWord demo.sizes ['4', '2', '9', '4', '9', '6', '7', '2', '9', '6'] = .ok (2 ^ 32) ∧
      2 ^ (8 * demo.bc) ≤ 2 ^ 32 ∧ 0 < 1) := by decide +kernel
/-- The same on a block that is not READY. -/
theorem witness_benchmark_not_ready :
    demoFailed.Inv ∧ demoFailed.phase = .idle ∧ demoFailed.lifecycle ≠ .ready ∧ toolWord demoFailed.sizes ['7'] = .ok 7 := by
  decide +kernel
/-- R190: a benchmark of one pair exits with 0, and not with 0 after an OverflowError. -/
theorem test_benchmark_exit_code :
    (benchmarkOutcome 1 ['7'] true false (noBus demo)).exitCode = 0 ∧
    (benchmarkOutcome 1 ['4', '2', '9', '4', '9', '6', '7', '2', '9', '6'] true false demo).error
      = some .overflowError := by decide +kernel
/-- ResetMeetsInvariant, at the smallest sizes. -/
theorem witness_resetOf : 1 ≤ (⟨1, 32⟩ : Sizes).nbMax ∧ 32 ≤ (⟨1, 32⟩ : Sizes).cwMax := by decide
/-- LanesAndLimbs. -/
theorem witness_lanes : 0xFFFFFFFF00000000 < 2 ^ (32 * 2) := by decide

/-! ### Blocks of other sizes (00_scope.md R6, R7) -/

/-- A configured block of these sizes, without the table. -/
def sized (nbMax cwMax : Nat) (s : State) : State :=
  { State.resetOf ⟨nbMax, cwMax⟩ false with
    lifecycle := s.lifecycle, wlen := s.wlen, cw := s.cw, cpoly := s.cpoly, cinit := s.cinit, word := s.word }

/-- R6, R7, R181 (f), (g): a block takes the largest word length and width of its own sizes and refuses the next. -/
theorem test_configure_other_sizes :
    (sized 4 32 (unconfigured 32 32 1 0)).validConfig = true ∧ (sized 4 32 (unconfigured 40 32 1 0)).validConfig = false ∧
    (sized 4 32 (unconfigured 32 33 1 0)).validConfig = false ∧
    (sized 16 128 (unconfigured 128 128 (2 ^ 128 - 1) 0)).validConfig = true := by decide +kernel
/-- R100, at `CW_MAX = 128`: with the polynomial 0 the register only shifts. -/
theorem test_crcbyte_width_128 :
    (after (exec (.crcByte 0xFF) { sized 16 128 (cfg 128 128 0 0 0) with creg := 2 ^ 120 - 1 })).creg
      = 2 ^ 128 - 256 := by decide +kernel
/-- The invariant holds of smaller and of larger blocks. -/
theorem witness_other_sizes_small : (sized 4 32 demo).Inv := by decide +kernel
theorem witness_other_sizes_large : (sized 16 128 (cfg 128 128 (2 ^ 128 - 1) 0 (2 ^ 128 - 1))).Inv := by decide +kernel

end Sys2Proof.Tests
end

section
/-! PROOFS. The engine of the block computes the CRC of the locked configuration (40_crc_engine.md R100 to R107): the bit
step and the byte step are linear over XOR, and a register whose own top byte is fed to it is only shifted. -/

namespace Sys2Proof.Machine

/-! ### The bit step -/

/-- A shifted register `r` with the polynomial added when the bit leaving the top differs from the input bit (R100). -/
theorem crcBit_eq {W r : Nat} (P : Nat) (b : Bool) (hr : r < 2 ^ W) :
    crcBit W P r b.toNat = (r <<< 1) % 2 ^ W ^^^ if r.testBit (W - 1) ^^ b then P else 0 := by
  have htop : r >>> (W - 1) = (r.testBit (W - 1)).toNat := by
    have hlt : r >>> (W - 1) < 2 := by
      rw [Nat.shiftRight_eq_div_pow, Nat.div_lt_iff_lt_mul (Nat.two_pow_pos _), ← pow_succ']
      exact lt_of_lt_of_le hr (Nat.pow_le_pow_right (by decide) (by omega))
    rw [Nat.toNat_testBit, ← Nat.shiftRight_eq_div_pow, Nat.mod_eq_of_lt hlt]
  unfold crcBit
  simp only [htop]
  cases r.testBit (W - 1) <;> cases b <;> simp

/-- The bit step keeps the width. -/
theorem crcBit_lt {W P r : Nat} (b : Nat) (hP : P < 2 ^ W) : crcBit W P r b < 2 ^ W := by
  have hsh : (r <<< 1) % 2 ^ W < 2 ^ W := Nat.mod_lt _ (Nat.two_pow_pos _)
  simp only [crcBit]
  split
  · exact Nat.xor_lt_two_pow hsh hP
  · exact hsh

/-- Whether the polynomial is added is linear over XOR too: twice is not at all. -/
theorem polynomial_xor (P : Nat) (a b : Bool) :
    (if a ^^ b then P else 0) = (if a then P else 0) ^^^ if b then P else 0 := by
  cases a <;> cases b <;> simp

/-- The bit step is linear over XOR in the register and the input bit together. -/
theorem crcBit_xor {W r s : Nat} (P : Nat) (a b : Bool) (hr : r < 2 ^ W) (hs : s < 2 ^ W) :
    crcBit W P (r ^^^ s) (a ^^ b).toNat = crcBit W P r a.toNat ^^^ crcBit W P s b.toNat := by
  rw [crcBit_eq P _ (Nat.xor_lt_two_pow hr hs), crcBit_eq P _ hr, crcBit_eq P _ hs, Nat.shiftLeft_xor_distrib,
    Nat.xor_mod_two_pow, Nat.testBit_xor]
  have hbits : ((r.testBit (W - 1) ^^ s.testBit (W - 1)) ^^ (a ^^ b))
      = ((r.testBit (W - 1) ^^ a) ^^ (s.testBit (W - 1) ^^ b)) := by
    simp only [Bool.xor_assoc, Bool.xor_left_comm]
  rw [hbits, polynomial_xor]
  ac_rfl

/-- A register whose own top bit is fed to it is only shifted. -/
theorem crcBit_own_top {W r : Nat} (P : Nat) (hr : r < 2 ^ W) :
    crcBit W P r (r.testBit (W - 1)).toNat = (r <<< 1) % 2 ^ W := by
  simp [crcBit_eq P _ hr]

/-! ### The byte step -/

/-- Bit steps over any positions of a byte keep the width. -/
theorem foldl_crcBit_lt {W P : Nat} (d : Byte) (ks : List Nat) {r : Nat} (hP : P < 2 ^ W) (hr : r < 2 ^ W) :
    ks.foldl (fun r k => crcBit W P r (d.getLsbD k).toNat) r < 2 ^ W := by
  induction ks generalizing r with
  | nil => exact hr
  | cons k ks ih => exact ih (crcBit_lt _ hP)

/-- Bit steps over any positions of two bytes are linear over XOR. -/
theorem foldl_crcBit_xor {W P : Nat} (d e : Byte) (ks : List Nat) {r s : Nat} (hP : P < 2 ^ W) (hr : r < 2 ^ W)
    (hs : s < 2 ^ W) :
    ks.foldl (fun r k => crcBit W P r ((d ^^^ e).getLsbD k).toNat) (r ^^^ s)
      = ks.foldl (fun r k => crcBit W P r (d.getLsbD k).toNat) r ^^^
        ks.foldl (fun r k => crcBit W P r (e.getLsbD k).toNat) s := by
  induction ks generalizing r s with
  | nil => rfl
  | cons k ks ih =>
    simp only [List.foldl_cons]
    rw [BitVec.getLsbD_xor, crcBit_xor P _ _ hr hs]
    exact ih (crcBit_lt _ hP) (crcBit_lt _ hP)

/-- The byte step keeps the width. -/
theorem crcByte_lt {W P r : Nat} (d : Byte) (hP : P < 2 ^ W) (hr : r < 2 ^ W) : crcByte W P r d < 2 ^ W :=
  foldl_crcBit_lt d _ hP hr

/-- The byte step is linear over XOR in the register and the byte together (R103 (e)). -/
theorem crcByte_xor {W P r s : Nat} (d e : Byte) (hP : P < 2 ^ W) (hr : r < 2 ^ W) (hs : s < 2 ^ W) :
    crcByte W P (r ^^^ s) (d ^^^ e) = crcByte W P r d ^^^ crcByte W P s e :=
  foldl_crcBit_xor d e _ hP hr hs

/-- The byte at the top of a register of width `W`: the eight bits that the next byte step shifts out. At a width below
8 the bits below the register are 0. -/
def topByte (W r : Nat) : Byte := BitVec.ofNat 8 ((r <<< 8) >>> W)

/-- Bit `k` of the top byte is the top bit of the register once the bits above it are shifted out. -/
theorem topByte_getLsbD {W k : Nat} (r : Nat) (hW : 1 ≤ W) (hk : k < 8) :
    (topByte W r).getLsbD k = ((r <<< (7 - k)) % 2 ^ W).testBit (W - 1) := by
  have hi : W + k - 8 = W - 1 - (7 - k) := by omega
  have hc : W + k ≥ 8 ↔ W - 1 ≥ 7 - k := by omega
  have hw : W - 1 < W := by omega
  rw [topByte, BitVec.getLsbD_ofNat, Nat.testBit_shiftRight, Nat.testBit_shiftLeft, Nat.testBit_mod_two_pow,
    Nat.testBit_shiftLeft, hi]
  simp only [hk, hc, hw, decide_true, Bool.true_and]

/-- One more own top bit fed to a register that is only shifted so far. -/
theorem crcBit_shifted (W P r j : Nat) :
    crcBit W P ((r <<< j) % 2 ^ W) (((r <<< j) % 2 ^ W).testBit (W - 1)).toNat = (r <<< (j + 1)) % 2 ^ W := by
  rw [crcBit_own_top P (Nat.mod_lt _ (Nat.two_pow_pos _)), Nat.shiftLeft_add]
  simp [Nat.shiftLeft_eq]

/-- A register whose own top byte is fed to it is only shifted. -/
theorem crcByte_topByte {W r : Nat} (P : Nat) (hW : 1 ≤ W) (hr : r < 2 ^ W) :
    crcByte W P r (topByte W r) = (r <<< 8) % 2 ^ W := by
  have hfirst : crcBit W P r (((r <<< 0) % 2 ^ W).testBit (W - 1)).toNat = (r <<< 1) % 2 ^ W := by
    simpa [Nat.mod_eq_of_lt hr] using crcBit_own_top P hr
  simp only [crcByte, List.foldl_cons, List.foldl_nil, topByte_getLsbD r hW, Nat.reduceLT, Nat.reduceSub, hfirst,
    crcBit_shifted, Nat.reduceAdd]

/-- The byte step is the register shifted, with the table's entry for the byte added to its top byte. -/
theorem crcByte_eq_shift_xor_tableEntry {W P r : Nat} (d : Byte) (hW : 1 ≤ W) (hP : P < 2 ^ W) (hr : r < 2 ^ W) :
    crcByte W P r d = (r <<< 8) % 2 ^ W ^^^ tableEntry W P (topByte W r ^^^ d).toNat := by
  have h := crcByte_xor (topByte W r) (topByte W r ^^^ d) hP hr (Nat.two_pow_pos W)
  rw [Nat.xor_zero, ← BitVec.xor_assoc, BitVec.xor_self, BitVec.zero_xor, crcByte_topByte P hW hr] at h
  simpa [tableEntry] using h

/-! ### The table step -/

/-- The table step in terms of the register's top byte, at every width (R106). -/
theorem crcByteT_eq {W r : Nat} (T : Nat → Nat) (d : Byte) (hr : r < 2 ^ W) :
    crcByteT T W r d = (r <<< 8) % 2 ^ W ^^^ T (topByte W r ^^^ d).toNat := by
  unfold crcByteT
  rw [BitVec.toNat_xor, topByte, BitVec.toNat_ofNat]
  split
  · next h8 =>
    obtain ⟨m, rfl⟩ := Nat.exists_eq_add_of_le h8
    have hb : r >>> m < 2 ^ 8 := by
      rwa [Nat.shiftRight_eq_div_pow, Nat.div_lt_iff_lt_mul (Nat.two_pow_pos _), ← pow_add]
    rw [Nat.add_sub_cancel_left, Nat.shiftRight_add, Nat.shiftLeft_shiftRight, Nat.mod_eq_of_lt hb]
  · next h8 =>
    have hs : r <<< 8 = r <<< (8 - W) <<< W := by rw [← Nat.shiftLeft_add, Nat.sub_add_cancel (by omega)]
    rw [hs, Nat.shiftLeft_shiftRight, Nat.shiftLeft_eq _ W, Nat.mul_mod_left, Nat.zero_xor]

/-- The table step over the entries of R105 is the byte step. -/
theorem crcByteT_tableEntry {W P r : Nat} (d : Byte) (hW : 1 ≤ W) (hP : P < 2 ^ W) (hr : r < 2 ^ W) :
    crcByteT (tableEntry W P) W r d = crcByte W P r d := by
  rw [crcByteT_eq _ d hr, crcByte_eq_shift_xor_tableEntry d hW hP hr]

/-- The table step over `CTAB` as CONFIGURE builds it is the byte step: the index is a byte. -/
theorem crcByteT_buildTable {W P r : Nat} (d : Byte) (hW : 1 ≤ W) (hP : P < 2 ^ W) (hr : r < 2 ^ W) :
    crcByteT (fun i => (buildTable W P)[i]?.getD 0) W r d = crcByte W P r d := by
  have hi : (topByte W r ^^^ d).toNat < 256 := (topByte W r ^^^ d).isLt
  rw [← crcByteT_tableEntry d hW hP hr, crcByteT_eq _ d hr, crcByteT_eq _ d hr]
  simp only [buildTable, Vector.getElem?_ofFn, hi, dif_pos, Option.getD_some]

/-! ### The engine of the block -/

/-- A step that is the byte step on every register of the width computes `compute_crc` (R102, R107). -/
theorem foldl_eq_computeCrc {W P I : Nat} {byteStep : Nat → Byte → Nat} (f : Frame) (hP : P < 2 ^ W)
    (hI : I < 2 ^ W) (hb : ∀ r d, r < 2 ^ W → byteStep r d = crcByte W P r d) :
    f.foldl byteStep I = computeCrc f W P I := by
  unfold computeCrc
  induction f generalizing I with
  | nil => rfl
  | cons d f ih =>
    rw [List.foldl_cons, List.foldl_cons, hb I d hI]
    exact ih (crcByte_lt d hP hI)

/-- What a valid configuration says of the width, the polynomial and the initial value (43_system_and_host.md R181). -/
theorem crc_parameters_of_validConfig {s : State} (h : s.validConfig = true) :
    1 ≤ s.cw.toNat ∧ s.cpoly < 2 ^ s.cw.toNat ∧ s.cinit < 2 ^ s.cw.toNat := by
  simp only [State.validConfig, Bool.and_eq_true, decide_eq_true_eq] at h
  obtain ⟨⟨⟨⟨⟨⟨hw, hp⟩, hi⟩, -⟩, -⟩, -⟩, -⟩ := h
  exact ⟨hw, hp, hi⟩

/-- Over a valid configuration both forms of the engine are the byte step (R8, R101, R106). -/
theorem engineByte_eq_crcByte {s : State} {r : Nat} (d : Byte) (hv : s.validConfig = true)
    (ht : s.ctab = none ∨ s.ctab = some (buildTable s.cw.toNat s.cpoly)) (hr : r < 2 ^ s.cw.toNat) :
    s.engineByte r d = crcByte s.cw.toNat s.cpoly r d := by
  obtain ⟨hW, hP, -⟩ := crc_parameters_of_validConfig hv
  rcases ht with ht | ht
  · simp only [State.engineByte, ht]
  · simp only [State.engineByte, ht]
    exact crcByteT_buildTable d hW hP hr

/-- Over a valid configuration the engine's run over a frame is `compute_crc` of it. -/
theorem engineRun_eq_computeCrc {s : State} (f : Frame) (hv : s.validConfig = true)
    (ht : s.ctab = none ∨ s.ctab = some (buildTable s.cw.toNat s.cpoly)) :
    s.engineRun f = computeCrc f s.cw.toNat s.cpoly s.cinit := by
  obtain ⟨-, hP, hI⟩ := crc_parameters_of_validConfig hv
  exact foldl_eq_computeCrc f hP hI fun _ d hr => engineByte_eq_crcByte d hv ht hr

/-- Settles O6: in READY the configuration is valid and the table, where there is one, is that of R105, whose step is
the byte step. -/
theorem blockEngineComputesCrc : Obligations.BlockEngineComputesCrc := by
  unfold Obligations.BlockEngineComputesCrc
  intro s hinv hready
  obtain ⟨-, hconfig, htable, -⟩ := hinv
  have hv := hconfig hready
  have ht := htable hready
  exact ⟨fun _ d hr => engineByte_eq_crcByte d hv ht hr, fun f => engineRun_eq_computeCrc f hv ht⟩

end Sys2Proof.Machine
end

section
/-! PROOFS. What a step of the machine runs, and how the steps of a command compose into the step of level C. -/

namespace Sys2Proof.Machine

/-! ### One step of the machine, by the turn it takes -/

/-- A busy block takes the phase step of the command in `CMD`. -/
theorem sequencerStep_of_decode {s : State} {i : Instr} (hp : s.phase ≠ .idle) (hd : decode s.cmd = .ok i) :
    sequencerStep s = exec i s := by
  simp [sequencerStep, State.busy, hp, hd]

/-- The acceptance of a legal word runs its command. -/
theorem issue_of_decode {w : Word32} {s : State} {i : Instr} (hd : decode w = .ok i) :
    issue w s = exec i (accept w s) := by
  simp [issue, hd]

/-- The acceptance of an illegal word raises IllegalCommand. -/
theorem issue_of_illegal {w : Word32} {s : State} {e : IllegalWord} (hd : decode w = .error e) :
    issue w s = .next (raise .illegalCommand (accept w s)) := by
  simp [issue, hd]

/-- The host's write to `CMD` while the block is idle is the acceptance of the word. -/
theorem step_hostWrite_cmd {s : State} {w : Word32} {rest : List Turn} (hr : s.rst = false)
    (ha : s.agenda = .hostWrite 0x00 4 w :: rest) (hp : s.phase = .idle) :
    step s = issue w { s with agenda := rest } := by
  simp [step, takeTurn, turnRunning, memWrite, accessDefined, State.busy, ha, hr, hp]

/-- A turn of the sequencer is its phase step. -/
theorem step_sequencer {s : State} {rest : List Turn} (hr : s.rst = false) (ha : s.agenda = .sequencer :: rest) :
    step s = sequencerStep { s with agenda := rest } := by
  simp [step, takeTurn, turnRunning, ha, hr]

/-- While the host waits for a busy block, the sequencer moves and the wait stays on the agenda. -/
theorem step_hostWait_busy {s : State} {rest : List Turn} (hr : s.rst = false) (ha : s.agenda = .hostWait :: rest)
    (hp : s.phase ≠ .idle) : step s = sequencerStep s := by
  simp [step, takeTurn, turnRunning, hostWaits, State.busy, ha, hr, hp]

/-- The wait for an idle block is over with one read of `STATUS`. -/
theorem step_hostWait_idle {s : State} {rest : List Turn} (hr : s.rst = false) (ha : s.agenda = .hostWait :: rest)
    (hp : s.phase = .idle) : step s = .next { s with agenda := rest, readData := s.status } := by
  simp [step, takeTurn, turnRunning, hostWaits, memRead, accessDefined, State.busy, ha, hr, hp]
  rfl

/-- With nothing on the agenda the sequencer moves. -/
theorem step_empty_agenda {s : State} (hr : s.rst = false) (ha : s.agenda = []) : step s = sequencerStep s := by
  simp [step, takeTurn, ha, hr]

/-- Settles O20: each of the four turns runs the decoded command, by the equation of that turn. -/
theorem stepRunsDecodedCommand : Obligations.StepRunsDecodedCommand := by
  unfold Obligations.StepRunsDecodedCommand
  intro s i hr
  refine ⟨?issue, ?sequencer, ?hostWait, ?emptyAgenda⟩
  case issue =>
    intro w rest ha hp hd
    rw [step_hostWrite_cmd hr ha hp, issue_of_decode hd]
    rfl
  case sequencer =>
    intro rest ha hp hd
    rw [step_sequencer hr ha, sequencerStep_of_decode (s := { s with agenda := rest }) hp hd]
  case hostWait =>
    intro rest ha hp hd
    rw [step_hostWait_busy hr ha hp, sequencerStep_of_decode hp hd]
  case emptyAgenda =>
    intro ha hp hd
    rw [step_empty_agenda hr ha, sequencerStep_of_decode hp hd]

/-! ### The steps of a command compose into level C -/

/-- The phase steps a command can still take from a phase, that phase's own included (10_state.md R31). -/
def Phase.stepsLeft : Phase → Nat
  | .idle => 0
  | .check => 1
  | .reassemble => 2
  | .exchange => 3
  | .encode => 4

theorem Phase.stepsLeft_le (p : Phase) : p.stepsLeft ≤ 4 := by
  cases p <;> simp [stepsLeft]

theorem Phase.stepsLeft_eq_zero {p : Phase} : p.stepsLeft = 0 ↔ p = .idle := by
  cases p <;> simp [stepsLeft]

/-- No step of a command touches the command in `CMD`, the agenda or the reset input. -/
theorem exec_keeps_cmd_agenda_rst {i : Instr} {s t : State} (h : exec i s = .next t) :
    t.cmd = s.cmd ∧ t.agenda = s.agenda ∧ t.rst = s.rst := by
  rcases exec_next_cases i s t h with
    ⟨-, -, rfl⟩ | ⟨-, -, accepted⟩ | ⟨-, encoded⟩ | ⟨-, exchanged⟩ | ⟨-, c, -, -, rfl⟩ | ⟨-, -, -, rfl⟩
  · simp
  · rcases accepted with ⟨-, rfl⟩ | ⟨-, rfl⟩ | ⟨d, -, rfl⟩ | ⟨-, rfl⟩
    · rcases configureBlock_cases s with ⟨-, e⟩ | ⟨-, e⟩ <;> simp [e]
    · simp [startCrc]
    · simp [takeByte]
    · simp
  · rcases encoded with ⟨-, rfl⟩ | ⟨c, -, rfl⟩ | ⟨c, v, -, rfl⟩
    · rcases genCrcPhase_cases s with ⟨-, e⟩ | ⟨-, e⟩ <;> simp [e]
    · rcases encodePhase_cases c finish s with ⟨-, e⟩ | ⟨-, e⟩ <;> simp [e]
    · rcases encodePhase_cases c toExchange s with ⟨-, e⟩ | ⟨-, e⟩ <;> simp [e]
  · rcases exchanged with ⟨c, v, -, rfl⟩ | ⟨c, v, -, rfl⟩ <;> simp [exchangePhase]
  · cases c <;> simp [reassemblePhase]
  · simp [checkPhase]

/-- Every phase step moves on to a phase with fewer steps left. -/
theorem exec_stepsLeft_lt {i : Instr} {s t : State} (hp : s.phase ≠ .idle) (h : exec i s = .next t) :
    t.phase.stepsLeft < s.phase.stepsLeft := by
  rcases exec_next_cases i s t h with
    ⟨idle, -⟩ | ⟨idle, -⟩ | ⟨p, encoded⟩ | ⟨p, exchanged⟩ | ⟨p, c, -, -, rfl⟩ | ⟨p, -, -, rfl⟩
  · exact absurd idle hp
  · exact absurd idle hp
  · rcases encoded with ⟨-, rfl⟩ | ⟨c, -, rfl⟩ | ⟨c, v, -, rfl⟩
    · rcases genCrcPhase_cases s with ⟨-, e⟩ | ⟨-, e⟩ <;> simp [e, p, Phase.stepsLeft]
    · rcases encodePhase_cases c finish s with ⟨-, e⟩ | ⟨-, e⟩ <;> simp [e, p, Phase.stepsLeft]
    · rcases encodePhase_cases c toExchange s with ⟨-, e⟩ | ⟨-, e⟩ <;> simp [e, p, Phase.stepsLeft]
  · rcases exchanged with ⟨c, v, -, rfl⟩ | ⟨c, v, -, rfl⟩ <;> simp [exchangePhase, p, Phase.stepsLeft]
  · cases c <;> simp [reassemblePhase, p, Phase.stepsLeft]
  · simp [checkPhase, p, Phase.stepsLeft]

/-- The run of a machine goes on from the next state. -/
theorem run_succ_of_step {n : Nat} {s t : State} (h : step s = .next t) :
    Host.Core.run core (n + 1) s = Host.Core.run core n t := by
  have hc : core.step s = .next t := h
  simp only [Host.Core.run, hc]

/-- A level C run of phase steps that has an answer begins with an answer of its first phase step. -/
theorem finishPhases_next_step {k : Nat} {i : Instr} {s t : State} (hp : s.phase ≠ .idle)
    (h : finishPhases (k + 1) i s = .next t) : ∃ u, exec i s = .next u ∧ finishPhases k i u = .next t := by
  simp only [finishPhases, State.busy, bne_iff_ne, ne_eq, hp, not_false_eq_true, if_true] at h
  split at h
  · exact ⟨_, ‹_›, h⟩
  all_goals cases h

/-- The wait for an idle block takes one step of the machine. -/
theorem run_hostWait_idle {s : State} {rest : List Turn} (hr : s.rst = false) (ha : s.agenda = .hostWait :: rest)
    (hp : s.phase = .idle) :
    Host.Core.run core 1 s = .next { s with agenda := rest, readData := s.status } :=
  run_succ_of_step (step_hostWait_idle hr ha hp)

/-- While the host waits, the machine takes the phase steps of level C one by one, then reads `STATUS`. -/
theorem run_hostWait {i : Instr} {t : State} {rest : List Turn} (k : Nat) (s : State)
    (hk : s.phase.stepsLeft ≤ k) (hr : s.rst = false) (ha : s.agenda = .hostWait :: rest)
    (hd : decode s.cmd = .ok i) (h : finishPhases k i s = .next t) :
    ∃ n, n ≤ k + 1 ∧ Host.Core.run core n s = .next { t with agenda := rest, readData := t.status } := by
  by_cases hp : s.phase = .idle
  · rw [finishPhases_idle k i s hp] at h
    cases h
    exact ⟨1, by omega, run_hostWait_idle hr ha hp⟩
  · cases k with
    | zero => exact absurd (Phase.stepsLeft_eq_zero.mp (Nat.le_zero.mp hk)) hp
    | succ k =>
      obtain ⟨u, he, hu⟩ := finishPhases_next_step hp h
      obtain ⟨hcmd, hagenda, hrst⟩ := exec_keeps_cmd_agenda_rst he
      have hlt := exec_stepsLeft_lt hp he
      obtain ⟨n, hn, hrun⟩ := run_hostWait k u (by omega) (hrst.trans hr) (hagenda.trans ha) (hcmd ▸ hd) hu
      have hs : step s = .next u := by rw [step_hostWait_busy hr ha hp, sequencerStep_of_decode hp hd, he]
      exact ⟨n + 1, by omega, (run_succ_of_step hs).trans hrun⟩

/-- Level C of a legal word: its acceptance has an answer, and the phase steps go on from there. -/
theorem runWord_next_cases {w : Word32} {s t : State} (h : runWord w s = .next t) :
    (∃ i u, decode w = .ok i ∧ exec i (accept w s) = .next u ∧ finishPhases 4 i u = .next t) ∨
    ((∃ e, decode w = .error e) ∧ t = raise .illegalCommand (accept w s)) := by
  unfold runWord at h
  split at h
  · rename_i i hd
    unfold runCommand at h
    split at h
    · exact .inl ⟨i, _, hd, ‹_›, h⟩
    all_goals cases h
  · cases h
    exact .inr ⟨⟨_, ‹_›⟩, rfl⟩

/-- Settles O37: the write is the acceptance of level C, and the wait is its phase steps and one read of `STATUS`; the
steps left after acceptance are at most four. -/
theorem stepsComposeToLevelC : Obligations.StepsComposeToLevelC := by
  unfold Obligations.StepsComposeToLevelC
  intro s t w rest hr hp ha h
  have hissue := step_hostWrite_cmd hr ha hp
  rcases runWord_next_cases h with ⟨i, u, hd, he, hu⟩ | ⟨⟨e, hd⟩, rfl⟩
  · obtain ⟨hcmd, hagenda, hrst⟩ := exec_keeps_cmd_agenda_rst he
    obtain ⟨n, hn, hrun⟩ := run_hostWait 4 u u.phase.stepsLeft_le (hrst.trans hr) hagenda (hcmd ▸ hd) hu
    rw [issue_of_decode hd, he] at hissue
    exact ⟨n + 1, by omega, (run_succ_of_step hissue).trans hrun⟩
  · rw [issue_of_illegal hd] at hissue
    exact ⟨2, by omega, (run_succ_of_step hissue).trans (run_hostWait_idle hr rfl rfl)⟩

end Sys2Proof.Machine
end

section
/-! PROOFS. What one answer of `exec` does to the state, in one flat list of effects, and the frame facts of a step. -/

namespace Sys2Proof.Machine

/-- The outbound frame that the ENCODE phase builds from a word that fits (41_word_codec.md R133). -/
def State.outFrame (c : Bool) (s : State) : Frame :=
  be s.word s.bc ++ if c then be (s.engineRun (be s.word s.bc)) s.cbc else []

/-- The effects an answer of `exec` can have, one per way to end or go on, each with the phase, the command and the
guard it comes with. `exec_effect` ties it to the model. -/
inductive ExecEffect (i : Instr) (s : State) : State → Prop
  | badState (hp : s.phase = .idle) (ha : allowedIn i s.lifecycle = false) : ExecEffect i s (raise .badState s)
  | configured (hp : s.phase = .idle) (hi : i = .configure) (hl : s.lifecycle = .unconfigured)
      (hv : s.validConfig = true) : ExecEffect i s (finish (makeReady s))
  | configurationError (hp : s.phase = .idle) (hi : i = .configure) (hl : s.lifecycle = .unconfigured) :
      ExecEffect i s (raise .configurationError s)
  | crcStarted (hp : s.phase = .idle) (hi : i = .crcStart) (hl : s.lifecycle = .ready) :
      ExecEffect i s (finish (storeCreg s.cinit s))
  | byteTaken (d : Byte) (hp : s.phase = .idle) (hi : i = .crcByte d) (hl : s.lifecycle = .ready) :
      ExecEffect i s (finish (storeCreg (s.engineByte s.creg d) s))
  | entered (hp : s.phase = .idle) (hi : runsThrough i .encode = true) (hl : s.lifecycle = .ready) :
      ExecEffect i s (enterEncode s)
  | overflow (hp : s.phase = .encode) (hi : runsThrough i .encode = true) (hw : 2 ^ (8 * s.bc) ≤ s.word) :
      ExecEffect i s (raise .overflowError s)
  | generated (hp : s.phase = .encode) (hi : i = .genCrc) (hw : s.word < 2 ^ (8 * s.bc)) :
      ExecEffect i s (finish (storeCreg (s.engineRun (be s.word s.bc)) s))
  | encoded (c : Bool) (hp : s.phase = .encode) (hi : i = .encode c) (hw : s.word < 2 ^ (8 * s.bc)) :
      ExecEffect i s (finish (storeOutbound c (s.outFrame c) s))
  | outboundReady (c v : Bool) (hp : s.phase = .encode) (hi : i = .write c v ∨ i = .read c v)
      (hw : s.word < 2 ^ (8 * s.bc)) : ExecEffect i s (toExchange (storeOutbound c (s.outFrame c) s))
  | written (c v : Bool) (hp : s.phase = .exchange) (hi : i = .write c v) : ExecEffect i s (finish (storeInbound s))
  | received (c v : Bool) (hp : s.phase = .exchange) (hi : i = .read c v) :
      ExecEffect i s (toReassemble (storeInbound s))
  | fullStored (v : Bool) (hp : s.phase = .reassemble) (hi : i = .read true v) : ExecEffect i s (storeFull s)
  | plainRead (v : Bool) (hp : s.phase = .reassemble) (hi : i = .read false v) :
      ExecEffect i s (finish (storePlainRead s))
  | checked (v : Bool) (hp : s.phase = .check) (hi : i = .read true v) :
      ExecEffect i s (finish (storeCheck (crcCheckBy s.engineRun s.full s.bc s.cw.toNat) s))

/-- A command other than CONFIGURE is allowed in READY only (30_encoding.md R85). -/
theorem allowedIn_iff_ready {i : Instr} {l : Lifecycle} (hi : i ≠ .configure) :
    allowedIn i l = true ↔ l = .ready := by
  cases i <;> simp [allowedIn] at hi ⊢

/-- The commands with an ENCODE phase (10_state.md R31). -/
theorem runsThrough_encode_iff (i : Instr) :
    runsThrough i .encode = true ↔
      i = .genCrc ∨ (∃ c, i = .encode c) ∨ (∃ c v, i = .write c v) ∨ ∃ c v, i = .read c v := by
  cases i <;> simp [runsThrough]

/-- Every answer of `exec` is one of the listed effects. -/
theorem exec_effect {i : Instr} {s t : State} (h : exec i s = .next t) : ExecEffect i s t := by
  rcases exec_next_cases i s t h with
    ⟨hp, ha, rfl⟩ | ⟨hp, ha, accepted⟩ | ⟨hp, encoded⟩ | ⟨hp, exchanged⟩ | ⟨hp, c, v, hi, rfl⟩ | ⟨hp, v, hi, rfl⟩
  · exact .badState hp ha
  · rcases accepted with ⟨rfl, rfl⟩ | ⟨rfl, rfl⟩ | ⟨d, rfl, rfl⟩ | ⟨hi, rfl⟩
    · have hl : s.lifecycle = .unconfigured := by simpa [allowedIn] using ha
      rcases configureBlock_cases s with ⟨hv, e⟩ | ⟨-, e⟩ <;> rw [e]
      · exact .configured hp rfl hl hv
      · exact .configurationError hp rfl hl
    · exact .crcStarted hp rfl ((allowedIn_iff_ready (by simp)).mp ha)
    · exact .byteTaken d hp rfl ((allowedIn_iff_ready (by simp)).mp ha)
    · have hi := (runsThrough_encode_iff i).mpr hi
      have hne : i ≠ .configure := by rintro rfl; cases hi
      exact .entered hp hi ((allowedIn_iff_ready hne).mp ha)
  · rcases encoded with ⟨rfl, rfl⟩ | ⟨c, rfl, rfl⟩ | ⟨c, v, hi, rfl⟩
    · rcases genCrcPhase_cases s with ⟨hw, e⟩ | ⟨hw, e⟩ <;> rw [e]
      · exact .overflow hp rfl hw
      · exact .generated hp rfl hw
    · rcases encodePhase_cases c finish s with ⟨hw, e⟩ | ⟨hw, e⟩ <;> rw [e]
      · exact .overflow hp rfl hw
      · exact .encoded c hp rfl hw
    · rcases encodePhase_cases c toExchange s with ⟨hw, e⟩ | ⟨hw, e⟩ <;> rw [e]
      · exact .overflow hp (by rcases hi with rfl | rfl <;> rfl) hw
      · exact .outboundReady c v hp hi hw
  · rcases exchanged with ⟨c, v, hi, rfl⟩ | ⟨c, v, hi, rfl⟩
    · exact .written c v hp hi
    · exact .received c v hp hi
  · cases c
    · exact .plainRead v hp hi
    · exact .fullStored v hp hi
  · exact .checked v hp hi

/-! ### How a command moves through its phases -/

/-- A command asked for in a phase of its own has an answer. -/
theorem exec_total {i : Instr} {s : State} (hi : runsThrough i s.phase = true) : ∃ t, exec i s = .next t := by
  cases hp : s.phase <;> rw [hp] at hi <;> cases i <;>
    simp_all [runsThrough, exec, execConfigure, execEncode, execWrite, execRead, execGenCrc, execCrcStart, execCrcByte]

/-- `PHASE` moves only along the moves of the command (10_state.md R31). -/
theorem ExecEffect.listedMove {i : Instr} {s t : State} (h : ExecEffect i s t) :
    phaseMove i s.phase t.phase = true := by
  cases h with
  | outboundReady c v hp hi hw => rcases hi with rfl | rfl <;> simp [phaseMove, runsThrough, hp]
  | _ => simp_all [phaseMove, runsThrough, crcFlagOf]

/-- A move ends in a phase the command runs through. -/
theorem runsThrough_of_phaseMove {i : Instr} {p q : Phase} (h : phaseMove i p q = true) : runsThrough i q = true := by
  cases p <;> cases q <;> simp_all [phaseMove, runsThrough]

/-- The phase steps of a command that is in a phase of its own end idle, if there are enough of them. -/
theorem finishPhases_ends_idle {i : Instr} (k : Nat) {s : State} (hi : runsThrough i s.phase = true)
    (hk : s.phase.stepsLeft ≤ k) : ∃ t, finishPhases k i s = .next t ∧ t.phase = .idle := by
  induction k generalizing s with
  | zero =>
    have hp := Phase.stepsLeft_eq_zero.mp (Nat.le_zero.mp hk)
    exact ⟨s, finishPhases_idle 0 i s hp, hp⟩
  | succ k ih =>
    by_cases hp : s.phase = .idle
    · exact ⟨s, finishPhases_idle (k + 1) i s hp, hp⟩
    · obtain ⟨u, hu⟩ := exec_total hi
      have hlt := exec_stepsLeft_lt hp hu
      rw [finishPhases_step k i s u hp hu]
      exact ih (runsThrough_of_phaseMove (exec_effect hu).listedMove) (by omega)

/-- Settles O36: acceptance has an answer in every idle state, and the phase steps that follow are at most four, each
with an answer. -/
theorem everyCommandEndsIdle : Obligations.EveryCommandEndsIdle := by
  unfold Obligations.EveryCommandEndsIdle
  intro s w hp
  unfold runWord
  cases hd : decode w with
  | error e => exact ⟨_, rfl, rfl⟩
  | ok i =>
    obtain ⟨u, hu⟩ := exec_total_idle i (accept w s) hp
    have hi := runsThrough_of_phaseMove (exec_effect hu).listedMove
    simpa only [runCommand, hu] using finishPhases_ends_idle 4 hi u.phase.stepsLeft_le

/-- Settles O42: by the effect of the step. -/
theorem phaseMovesAsListed : Obligations.PhaseMovesAsListed := by
  unfold Obligations.PhaseMovesAsListed
  intro i s t h
  have heff := exec_effect h
  refine ⟨heff.listedMove, ?acceptance, ?encodeEnds⟩
  case acceptance =>
    intro hp
    cases heff with
    | badState _ ha =>
      suffices hno : ¬(runsThrough i .encode = true ∧ s.lifecycle = .ready) by simpa using hno
      rintro ⟨hi, hl⟩
      cases i <;> simp [runsThrough, allowedIn, hl] at hi ha
    | _ => simp_all [runsThrough]
  case encodeEnds =>
    intro hp
    cases heff with
    | outboundReady c v _ hi hw => rcases hi with rfl | rfl <;> simp [hw]
    | encoded c _ hi _ => cases c <;> simp [hi]
    | _ => simp_all

end Sys2Proof.Machine
end

section
/-! PROOFS. Reset meets the invariant and every step keeps it: the register part of it (`RegInv`) store by store, then
status and flow effect by effect. -/

namespace Sys2Proof.Machine

/-! ### Sizes of the values a command computes -/

/-- The value of a frame fits its bytes. -/
theorem intOf_lt (f : Frame) : intOf f < 2 ^ (8 * f.length) := by
  induction f with
  | nil => simp [intOf]
  | cons b f ih =>
    have hb : b.toNat < 256 := b.isLt
    rw [intOf, List.length_cons, show 2 ^ (8 * (f.length + 1)) = 256 * 2 ^ (8 * f.length) by ring,
      show (256 : Nat) = 2 ^ 8 by rfl, ← pow_mul]
    nlinarith

/-- The full word of the REASSEMBLE phase fits `TXLEN` bytes (42_transactions.md R153, R155). -/
theorem fullWord_lt (s : State) : s.fullWord < 2 ^ (8 * s.txlen) := by
  have hprefix : ∀ b : Buffer, intOf (bufferPrefix b s.txlen) < 2 ^ (8 * s.txlen) := fun b =>
    lt_of_lt_of_le (intOf_lt _) (Nat.pow_le_pow_right (by decide) (by simp [bufferPrefix]))
  exact Nat.or_lt_two_pow (hprefix s.rxf) (hprefix s.txf)

/-- `compute_crc` over parameters of the width gives a value of the width. -/
theorem computeCrc_lt {W P I : Nat} (f : Frame) (hP : P < 2 ^ W) (hI : I < 2 ^ W) : computeCrc f W P I < 2 ^ W := by
  unfold computeCrc
  induction f generalizing I with
  | nil => exact hI
  | cons d f ih => exact ih (crcByte_lt d hP hI)

/-- A frame with or without its CRC has `NF(c)` bytes (00_scope.md R10). -/
theorem outFrame_length (c : Bool) (s : State) : (s.outFrame c).length = s.nf c := by
  cases c <;> simp [State.outFrame, State.nf, be_length_eq]

/-- The sizes of a valid configuration fit the block (43_system_and_host.md R181). -/
theorem sizes_of_validConfig {s : State} (h : s.validConfig = true) :
    s.cw.toNat ≤ s.sizes.cwMax ∧ s.bc ≤ s.sizes.nbMax ∧ ∀ c, s.nf c ≤ s.sizes.nfMax := by
  simp only [State.validConfig, Bool.and_eq_true, decide_eq_true_eq] at h
  obtain ⟨⟨-, hw⟩, hb⟩ := h
  have hbc : s.bc ≤ s.sizes.nbMax := by unfold State.bc; omega
  have hcbc : s.cbc ≤ s.sizes.cbMax := Nat.div_le_div_right (by omega)
  refine ⟨hw, hbc, fun c => Nat.add_le_add hbc ?_⟩
  cases c
  · exact Nat.zero_le _
  · exact hcbc

/-! ### The register part of the invariant -/

/-- The part of the invariant that speaks of no phase and no status field. -/
abbrev State.RegInv (s : State) : Prop :=
  s.WidthInv ∧ s.ConfigInv ∧ s.TableInv ∧ s.CregInv ∧ s.LengthInv

/-- The invariant is its register part with the status fields and the flow of the command. -/
theorem inv_iff (s : State) : s.Inv ↔ s.RegInv ∧ s.StatusInv ∧ s.flowOk = true := by
  simp only [State.Inv, State.RegInv, and_assoc]

/-- In READY the configuration is valid (43_system_and_host.md R181). -/
theorem validConfig_of_ready {s : State} (h : s.RegInv) (hl : s.lifecycle = .ready) : s.validConfig = true := by
  obtain ⟨-, hconfig, -⟩ := h
  exact hconfig hl

/-- In READY the sizes of the configuration fit the block. -/
theorem sizes_of_ready {s : State} (h : s.RegInv) (hl : s.lifecycle = .ready) :
    s.cw.toNat ≤ s.sizes.cwMax ∧ s.bc ≤ s.sizes.nbMax ∧ ∀ c, s.nf c ≤ s.sizes.nfMax :=
  sizes_of_validConfig (validConfig_of_ready h hl)

/-- In READY the byte step of the engine keeps the width. -/
theorem engineByte_lt {s : State} {r : Nat} (d : Byte) (h : s.RegInv) (hl : s.lifecycle = .ready)
    (hr : r < 2 ^ s.cw.toNat) : s.engineByte r d < 2 ^ s.cw.toNat := by
  obtain ⟨-, hconfig, htable, -⟩ := h
  obtain ⟨-, hP, -⟩ := crc_parameters_of_validConfig (hconfig hl)
  rw [engineByte_eq_crcByte d (hconfig hl) (htable hl) hr]
  exact crcByte_lt d hP hr

/-- In READY a run of the engine gives a value of the width. -/
theorem engineRun_lt {s : State} (f : Frame) (h : s.RegInv) (hl : s.lifecycle = .ready) :
    s.engineRun f < 2 ^ s.cw.toNat := by
  obtain ⟨-, hconfig, htable, -⟩ := h
  obtain ⟨-, hP, hI⟩ := crc_parameters_of_validConfig (hconfig hl)
  rw [engineRun_eq_computeCrc f (hconfig hl) (htable hl)]
  exact computeCrc_lt f hP hI

/-- In READY a value of the CRC width fits `CW_MAX` bits. -/
theorem lt_cwMax_of_ready {s : State} {r : Nat} (h : s.RegInv) (hl : s.lifecycle = .ready) (hr : r < 2 ^ s.cw.toNat) :
    r < 2 ^ s.sizes.cwMax :=
  lt_of_lt_of_le hr (Nat.pow_le_pow_right (by decide) (sizes_of_ready h hl).1)

/-- `CREG` takes any value of the CRC width. -/
theorem storeCreg_regInv {s : State} {r : Nat} (h : s.RegInv) (hl : s.lifecycle = .ready) (hr : r < 2 ^ s.cw.toNat) :
    (storeCreg r s).RegInv := by
  have hmax := lt_cwMax_of_ready h hl hr
  obtain ⟨⟨hz, hpoly, hinit, -, hrest⟩, hconfig, htable, -, hlen⟩ := h
  exact ⟨⟨hz, hpoly, hinit, hmax, hrest⟩, hconfig, htable, ⟨fun _ => hr, fun hn => absurd hl hn⟩, hlen⟩

/-- Taking over a valid configuration: the table is built for it, and `CREG` is still 0. -/
theorem makeReady_regInv {s : State} (h : s.RegInv) (hl : s.lifecycle ≠ .ready) (hv : s.validConfig = true) :
    (makeReady s).RegInv := by
  obtain ⟨hwidth, -, -, hcreg, hlen⟩ := h
  refine ⟨hwidth, fun _ => hv, fun _ => ?_, ⟨fun _ => ?_, fun hn => absurd rfl hn⟩, hlen⟩
  · cases ht : s.ctab with
    | none => exact .inl (by simp [ht])
    | some T => exact .inr (by simp [ht])
  · rw [makeReady_creg, hcreg.2 hl]
    exact Nat.two_pow_pos _

/-- The outbound frame fits `TXF`, and its CRC fits `CREG`. -/
theorem storeOutbound_regInv {s : State} (c : Bool) (h : s.RegInv) (hl : s.lifecycle = .ready) :
    (storeOutbound c (s.outFrame c) s).RegInv := by
  obtain ⟨-, -, -, hcreg, -⟩ := id h
  have hr : (if c then s.engineRun (be s.word s.bc) else s.creg) < 2 ^ s.cw.toNat := by
    cases c
    · exact hcreg.1 hl
    · exact engineRun_lt _ h hl
  have hf : (s.outFrame c).length ≤ s.sizes.nfMax := by
    obtain ⟨-, -, hnf⟩ := sizes_of_ready h hl
    rw [outFrame_length]
    exact hnf c
  obtain ⟨⟨hz, hpoly, hinit, hmax, hrx, hcalc, hpay, hword, hfull, -, hrest⟩, hconfig, htable, hcreg, -, hrxlen⟩ :=
    storeCreg_regInv h hl hr
  exact ⟨⟨hz, hpoly, hinit, hmax, hrx, hcalc, hpay, hword, hfull, loadBuffer_length _ _ _, hrest⟩, hconfig, htable,
    hcreg, hf, hrxlen⟩

/-- The inbound frame has the outbound length and fits `RXF`. -/
theorem storeInbound_regInv {s : State} (h : s.RegInv) : (storeInbound s).RegInv := by
  obtain ⟨⟨hz, hpoly, hinit, hmax, hrx, hcalc, hpay, hword, hfull, htxf, -, hstandin⟩, hconfig, htable, hcreg,
    htx, -⟩ := h
  exact ⟨⟨hz, hpoly, hinit, hmax, hrx, hcalc, hpay, hword, hfull, htxf, loadBuffer_length _ _ _, hstandin⟩, hconfig,
    htable, hcreg, htx, htx⟩

/-- `FULL` holds any full word: a frame is at most `NF_MAX` bytes. -/
theorem storeFull_regInv {s : State} (h : s.RegInv) : (storeFull s).RegInv := by
  obtain ⟨⟨hz, hpoly, hinit, hmax, hrx, hcalc, hpay, hword, -, hrest⟩, hconfig, htable, hcreg, htx, hrxlen⟩ := h
  have hfull : s.fullWord < 2 ^ (8 * s.sizes.nfMax) :=
    lt_of_lt_of_le (fullWord_lt s) (Nat.pow_le_pow_right (by decide) (by omega))
  exact ⟨⟨hz, hpoly, hinit, hmax, hrx, hcalc, hpay, hword, hfull, hrest⟩, hconfig, htable, hcreg, htx, hrxlen⟩

/-- The full word of a frame without CRC bytes fits `PAYLOAD`. -/
theorem storePlainRead_regInv {s : State} (h : s.RegInv) (hl : s.lifecycle = .ready) (htx : s.txlen = s.nf false) :
    (storePlainRead s).RegInv := by
  obtain ⟨-, hbc, -⟩ := sizes_of_ready h hl
  have hpay : s.fullWord < 2 ^ (8 * s.sizes.nbMax) :=
    lt_of_lt_of_le (fullWord_lt s) (Nat.pow_le_pow_right (by decide) (by simp [htx, State.nf, hbc]))
  obtain ⟨⟨hz, hpoly, hinit, hmax, -, -, -, hrest⟩, hconfig, htable, hcreg, hlen⟩ := storeFull_regInv h
  exact ⟨⟨hz, hpoly, hinit, hmax, Nat.two_pow_pos _, Nat.two_pow_pos _, hpay, hrest⟩, hconfig, htable, hcreg, hlen⟩

/-- What `crc_check` finds in a full word of `NF(1)` bytes fits its registers (42_transactions.md R154). -/
theorem storeCheck_regInv {s : State} (h : s.RegInv) (hl : s.lifecycle = .ready) (hf : s.full < 2 ^ (8 * s.nf true)) :
    (storeCheck (crcCheckBy s.engineRun s.full s.bc s.cw.toNat) s).RegInv := by
  obtain ⟨-, hbc, -⟩ := sizes_of_ready h hl
  have hrx : s.full % 2 ^ s.cw.toNat < 2 ^ s.cw.toNat := Nat.mod_lt _ (Nat.two_pow_pos _)
  have hcalc : s.engineRun (be (s.full >>> (8 * s.cbc)) s.bc) < 2 ^ s.cw.toNat := engineRun_lt _ h hl
  have hpay : s.full >>> (8 * s.cbc) < 2 ^ (8 * s.sizes.nbMax) := by
    rw [Nat.shiftRight_eq_div_pow, Nat.div_lt_iff_lt_mul (Nat.two_pow_pos _), ← pow_add]
    exact lt_of_lt_of_le hf (Nat.pow_le_pow_right (by decide) (by simp only [State.nf, if_true]; omega))
  have hrxMax := lt_cwMax_of_ready h hl hrx
  have hcalcMax := lt_cwMax_of_ready h hl hcalc
  obtain ⟨⟨hz, hpoly, hinit, hmax, -, -, -, hrest⟩, hconfig, htable, hcreg, hlen⟩ := storeCreg_regInv h hl hcalc
  exact ⟨⟨hz, hpoly, hinit, hmax, hrxMax, hcalcMax, hpay, hrest⟩, hconfig, htable, hcreg, hlen⟩

/-- Before READY only the widths and lengths are left to show, and that `CREG` is still 0. -/
theorem regInv_of_not_ready {s : State} (hl : s.lifecycle ≠ .ready) (hwidth : s.WidthInv) (hcreg : s.creg = 0)
    (hlen : s.LengthInv) : s.RegInv :=
  ⟨hwidth, fun hr => absurd hr hl, fun hr => absurd hr hl, ⟨fun hr => absurd hr hl, fun _ => hcreg⟩, hlen⟩

/-- A register write keeps every width, and it writes configuration fields before READY only. -/
theorem writeAt_regInv {s : State} (addr : Nat) (v : Word32) (h : s.RegInv) : (writeAt addr v s).RegInv := by
  obtain ⟨hwidth, hconfig, htable, hcreg, hlen⟩ := id h
  obtain ⟨hz, hpoly, hinit, hmax, hrx, hcalc, hpay, hword, hfull, htxf, hrxf, hstandin⟩ := id hwidth
  rcases writeAt_cases addr v s with e | ⟨j, e⟩ | ⟨j, e⟩ | ⟨hl, config⟩
  · rwa [e]
  · have hword' := setLimb_lt _ _ j v hword
    rw [e]
    generalize setLimb _ _ j v = word' at hword'
    exact ⟨⟨hz, hpoly, hinit, hmax, hrx, hcalc, hpay, hword', hfull, htxf, hrxf, hstandin⟩, hconfig, htable, hcreg,
      hlen⟩
  · rw [e]
    exact ⟨⟨hz, hpoly, hinit, hmax, hrx, hcalc, hpay, hword, hfull, htxf, hrxf,
      (setBufferLimb_length _ _ _).trans hstandin⟩, hconfig, htable, hcreg, hlen⟩
  · have hn : s.lifecycle ≠ .ready := by simp [hl]
    have hzero : s.creg = 0 := hcreg.2 hn
    rcases config with ⟨_, _, _, _, e⟩ | ⟨_, e⟩ | ⟨_, e⟩ | ⟨_, e⟩ | ⟨j, e⟩ | ⟨j, e⟩ <;> rw [e]
    iterate 4 exact regInv_of_not_ready hn hwidth hzero hlen
    · have hpoly' := setLimb_lt _ _ j v hpoly
      generalize setLimb _ _ j v = cpoly' at hpoly'
      exact regInv_of_not_ready hn
        ⟨hz, hpoly', hinit, hmax, hrx, hcalc, hpay, hword, hfull, htxf, hrxf, hstandin⟩ hzero hlen
    · have hinit' := setLimb_lt _ _ j v hinit
      generalize setLimb _ _ j v = cinit' at hinit'
      exact regInv_of_not_ready hn
        ⟨hz, hpoly, hinit', hmax, hrx, hcalc, hpay, hword, hfull, htxf, hrxf, hstandin⟩ hzero hlen

/-! ### Status and flow -/

/-- An idle block has no flow to keep. -/
theorem flowOk_of_idle {s : State} (hp : s.phase = .idle) : s.flowOk = true := by
  simp [State.flowOk, hp]

/-- What the flow says of a running command: READY, in a phase of its own, with the frames of its earlier phases. -/
theorem flowOk_running_iff {s : State} {i : Instr} (hp : s.phase ≠ .idle) (hd : decode s.cmd = .ok i) :
    s.flowOk = true ↔ s.lifecycle = .ready ∧ runsThrough i s.phase = true ∧ framesReady i s = true := by
  simp [State.flowOk, hp, hd]

/-- An error leaves the flags of the command unset; ConfigurationError ends no READY. -/
theorem raise_inv {e : ErrKind} {s : State} (h : s.RegInv) (hc : s.crcmm = false) (hm : s.mhw = false)
    (hl : e = .configurationError → s.lifecycle ≠ .ready) : (raise e s).Inv := by
  refine (inv_iff _).mpr ⟨?_, ⟨by simp, by simp, by simp [hc, hm]⟩, flowOk_of_idle rfl⟩
  cases e with
  | configurationError =>
    obtain ⟨hwidth, -, -, hcreg, hlen⟩ := h
    exact regInv_of_not_ready (by simp) hwidth (hcreg.2 (hl rfl)) hlen
  | _ => exact h

/-- A command that raised nothing may end. -/
theorem finish_inv {s : State} (h : s.RegInv) (herr : s.err = .none) : (finish s).Inv :=
  (inv_iff _).mpr ⟨h, ⟨by simp, by simp, by simp [herr]⟩, flowOk_of_idle rfl⟩

/-- A command may be in a phase of its own, with the frames of its earlier phases and no status set. -/
theorem running_inv {i : Instr} {s : State} (h : s.RegInv) (hl : s.lifecycle = .ready) (hp : s.phase ≠ .idle)
    (hd : decode s.cmd = .ok i) (hi : runsThrough i s.phase = true) (hf : framesReady i s = true)
    (hstatus : s.err = .none ∧ s.done = false ∧ s.crcmm = false)
    (hm : s.phase = .encode ∨ s.phase = .exchange → s.mhw = false) : s.Inv :=
  (inv_iff _).mpr ⟨h, ⟨fun _ => hstatus, hm, by simp [hstatus]⟩, (flowOk_running_iff hp hd).mpr ⟨hl, hi, hf⟩⟩

/-- The status fields as acceptance leaves them (30_encoding.md R81). -/
abbrev State.StatusClear (s : State) : Prop :=
  s.err = .none ∧ s.done = false ∧ s.crcmm = false ∧ s.mhw = false

/-- Every effect of the command in `CMD` keeps the invariant, if acceptance has cleared the status. -/
theorem ExecEffect.keeps_inv {i : Instr} {s t : State} (heff : ExecEffect i s t) (h : s.Inv)
    (hd : decode s.cmd = .ok i) (hclear : s.phase = .idle → s.StatusClear) : t.Inv := by
  obtain ⟨hreg, ⟨hbusy, hmhw, -⟩, hflow⟩ := (inv_iff s).mp h
  have running : ∀ {p : Phase}, s.phase = p → p ≠ .idle →
      s.lifecycle = .ready ∧ framesReady i s = true ∧ s.err = .none ∧ s.done = false ∧ s.crcmm = false := by
    rintro p rfl hp
    obtain ⟨hl, -, hf⟩ := (flowOk_running_iff hp hd).mp hflow
    exact ⟨hl, hf, hbusy hp⟩
  cases heff with
  | badState hp _ =>
    obtain ⟨-, -, hc, hm⟩ := hclear hp
    exact raise_inv hreg hc hm (by simp)
  | configured hp _ hl hv => exact finish_inv (makeReady_regInv hreg (by simp [hl]) hv) (hclear hp).1
  | configurationError hp _ hl =>
    obtain ⟨-, -, hc, hm⟩ := hclear hp
    exact raise_inv hreg hc hm (by simp [hl])
  | crcStarted hp _ hl =>
    obtain ⟨-, -, hinit⟩ := crc_parameters_of_validConfig (validConfig_of_ready hreg hl)
    exact finish_inv (storeCreg_regInv hreg hl hinit) (hclear hp).1
  | byteTaken d hp _ hl =>
    obtain ⟨-, -, -, hcreg, -⟩ := id hreg
    exact finish_inv (storeCreg_regInv hreg hl (engineByte_lt d hreg hl (hcreg.1 hl))) (hclear hp).1
  | entered hp hi hl =>
    obtain ⟨herr, hdone, hc, hm⟩ := hclear hp
    exact running_inv hreg hl (by simp) hd hi rfl ⟨herr, hdone, hc⟩ fun _ => hm
  | overflow hp _ _ =>
    obtain ⟨-, -, -, -, hc⟩ := running hp (by simp)
    exact raise_inv hreg hc (hmhw (.inl hp)) (by simp)
  | generated hp _ _ =>
    obtain ⟨hl, -, herr, -⟩ := running hp (by simp)
    exact finish_inv (storeCreg_regInv hreg hl (engineRun_lt _ hreg hl)) herr
  | encoded c hp _ _ =>
    obtain ⟨hl, -, herr, -⟩ := running hp (by simp)
    exact finish_inv (storeOutbound_regInv c hreg hl) herr
  | outboundReady c v hp hi _ =>
    obtain ⟨hl, -, hstatus⟩ := running hp (by simp)
    have hc : crcFlagOf i = c ∧ runsThrough i .exchange = true := by rcases hi with rfl | rfl <;> exact ⟨rfl, rfl⟩
    refine running_inv (storeOutbound_regInv c hreg hl) hl (by simp) hd hc.2 ?_ hstatus fun _ => hmhw (.inl hp)
    exact beq_iff_eq.mpr (hc.1 ▸ outFrame_length c s)
  | written c v hp _ =>
    obtain ⟨-, -, herr, -⟩ := running hp (by simp)
    exact finish_inv (storeInbound_regInv hreg) herr
  | received c v hp hi =>
    subst hi
    obtain ⟨hl, hf, hstatus⟩ := running hp (by simp)
    have hnf : s.txlen = s.nf c := by simpa [framesReady, hp, crcFlagOf] using hf
    exact running_inv (storeInbound_regInv hreg) hl (by simp) hd rfl
      (Bool.and_eq_true_iff.mpr ⟨beq_iff_eq.mpr hnf, beq_iff_eq.mpr rfl⟩) hstatus (by simp)
  | fullStored v hp hi =>
    subst hi
    obtain ⟨hl, hf, hstatus⟩ := running hp (by simp)
    have hnf : s.txlen = s.nf true := by simp_all [framesReady, crcFlagOf]
    have hfull : s.fullWord < 2 ^ (8 * s.nf true) := hnf ▸ fullWord_lt s
    exact running_inv (storeFull_regInv hreg) hl (by simp) hd rfl (decide_eq_true hfull) hstatus (by simp)
  | plainRead v hp hi =>
    subst hi
    obtain ⟨hl, hf, herr, -⟩ := running hp (by simp)
    have htx : s.txlen = s.nf false := by simp_all [framesReady, crcFlagOf]
    exact finish_inv (storePlainRead_regInv hreg hl htx) herr
  | checked v hp hi =>
    subst hi
    obtain ⟨hl, hf, herr, -⟩ := running hp (by simp)
    have hfull : s.full < 2 ^ (8 * s.nf true) := by simpa [framesReady, hp] using hf
    exact finish_inv (storeCheck_regInv hreg hl hfull) herr

/-! ### Acceptance, register writes, reset -/

/-- Acceptance clears the status and touches no other part of the invariant. -/
theorem accept_inv {s : State} (w : Word32) (h : s.Inv) (hp : s.phase = .idle) : (accept w s).Inv :=
  (inv_iff _).mpr ⟨((inv_iff s).mp h).1, ⟨by simp, by simp, by simp⟩, flowOk_of_idle hp⟩

/-- The acceptance of any word keeps the invariant. -/
theorem issue_keeps_inv {w : Word32} {s t : State} (h : s.Inv) (hp : s.phase = .idle) (ht : issue w s = .next t) :
    t.Inv := by
  have ha := accept_inv w h hp
  rcases issue_cases w s t ht with ⟨i, hd, he⟩ | ⟨-, rfl⟩
  · exact (exec_effect he).keeps_inv ha hd fun _ => ⟨rfl, rfl, rfl, rfl⟩
  · exact raise_inv ((inv_iff _).mp ha).1 rfl rfl (by simp)

/-- A register write writes configuration fields, `WORD` and `STANDIN` only (20_memory.md R64). -/
theorem writeAt_frame (addr : Nat) (v : Word32) (s : State) :
    ∃ busidx devidx ckmode nobus ckrate wlen cw cpoly cinit word standin,
      writeAt addr v s =
        { s with
          busidx := busidx, devidx := devidx, ckmode := ckmode, nobus := nobus, ckrate := ckrate, wlen := wlen, cw := cw
          cpoly := cpoly, cinit := cinit, word := word, standin := standin } := by
  rcases writeAt_cases addr v s with e | ⟨_, e⟩ | ⟨_, e⟩ |
    ⟨-, ⟨_, _, _, _, e⟩ | ⟨_, e⟩ | ⟨_, e⟩ | ⟨_, e⟩ | ⟨_, e⟩ | ⟨_, e⟩⟩ <;>
  exact ⟨_, _, _, _, _, _, _, _, _, _, _, e⟩

/-- A register write of the idle block keeps the invariant. -/
theorem writeAt_inv {s : State} (addr : Nat) (v : Word32) (h : s.Inv) (hp : s.phase = .idle) :
    (writeAt addr v s).Inv := by
  obtain ⟨hreg, hstatus, -⟩ := (inv_iff s).mp h
  have hreg' := writeAt_regInv addr v hreg
  obtain ⟨_, _, _, _, _, _, _, _, _, _, _, e⟩ := writeAt_frame addr v s
  rw [e] at hreg' ⊢
  exact (inv_iff _).mpr ⟨hreg', hstatus, flowOk_of_idle hp⟩

/-- The reset values meet the invariant at all legal sizes. -/
theorem inv_of_reset {s : State} {table : Bool} (hz : s.sizes.legal) (hb : s.toBlock = Block.reset s.sizes table) :
    s.Inv := by
  obtain ⟨block, z, rst, agenda, readData, busIn, busLog, draws⟩ := s
  obtain rfl : block = Block.reset z table := hb
  have hwidth : (State.mk (Block.reset z table) z rst agenda readData busIn busLog draws).WidthInv := by
    simp only [State.WidthInv, Block.reset, Nat.two_pow_pos, List.length_replicate, and_true]
    exact hz
  exact (inv_iff _).mpr ⟨regInv_of_not_ready (by simp [Block.reset]) hwidth rfl ⟨Nat.zero_le _, Nat.zero_le _⟩,
    ⟨by simp [Block.reset], fun _ => rfl, by simp [Block.reset]⟩, flowOk_of_idle rfl⟩

/-- Reset keeps the sizes and the form of the engine. -/
theorem resetBlock_sizes_ctab (s : State) :
    (resetBlock s).sizes = s.sizes ∧ (resetBlock s).ctab.isSome = s.ctab.isSome := by
  refine ⟨rfl, ?_⟩
  cases h : s.ctab <;> simp [resetBlock, Block.reset, h]

/-- Settles O39: by the reset values. -/
theorem resetMeetsInvariant : Obligations.ResetMeetsInvariant := by
  unfold Obligations.ResetMeetsInvariant
  refine ⟨fun z table hn hc => ⟨inv_of_reset ⟨hn, hc⟩ rfl, rfl, ?_, rfl⟩, rfl, rfl⟩
  cases table <;> rfl

/-- What the cut of an exchange leaves as it was: the block and its sizes. -/
theorem cutExchange_block (s : State) : (cutExchange s).toBlock = s.toBlock ∧ (cutExchange s).sizes = s.sizes := by
  unfold cutExchange
  split <;> exact ⟨rfl, rfl⟩

/-- No effect of a command changes the sizes or the form of the engine. -/
theorem ExecEffect.keeps_sizes_ctab {i : Instr} {s t : State} (heff : ExecEffect i s t) :
    t.sizes = s.sizes ∧ t.ctab.isSome = s.ctab.isSome := by
  cases heff <;> simp

/-- No step changes the sizes or the form of the engine. -/
theorem step_keeps_sizes_ctab {s t : State} (h : step s = .next t) :
    t.sizes = s.sizes ∧ t.ctab.isSome = s.ctab.isSome := by
  obtain ⟨rest, -, same | ⟨-, read⟩ | ⟨-, -, w, -, issued⟩ | ⟨-, -, addr, v, -, -, written⟩ | ⟨-, -, i, -, he⟩ |
    ⟨-, -, asserted⟩ | ⟨-, -, released⟩⟩ := step_cases s t h
  · simp [same]
  · rw [read]
    exact ⟨rfl, rfl⟩
  · rcases issue_cases _ _ _ issued with ⟨i, -, he⟩ | ⟨-, rfl⟩
    · exact (exec_effect he).keeps_sizes_ctab
    · exact ⟨rfl, rfl⟩
  · subst written
    obtain ⟨_, _, _, _, _, _, _, _, _, _, _, e⟩ := writeAt_frame addr v { s with agenda := rest }
    rw [e]
    exact ⟨rfl, rfl⟩
  · exact (exec_effect he).keeps_sizes_ctab
  · obtain ⟨hb, hz⟩ := cutExchange_block s
    have hr := resetBlock_sizes_ctab { cutExchange s with agenda := rest, rst := true }
    simpa [asserted, hb, hz] using hr
  · subst released
    exact resetBlock_sizes_ctab _

/-- Every step keeps the invariant. -/
theorem step_keeps_inv {s t : State} (hinv : s.Inv) (h : step s = .next t) : t.Inv := by
  obtain ⟨⟨hz, -⟩, -⟩ := id hinv
  obtain ⟨rest, -, same | ⟨-, read⟩ | ⟨-, hp, w, -, issued⟩ | ⟨-, hp, addr, v, -, -, written⟩ | ⟨-, hp, i, hd, he⟩ |
    ⟨-, -, asserted⟩ | ⟨-, -, released⟩⟩ := step_cases s t h
  · rw [same]
    exact hinv
  · rw [read]
    exact hinv
  · exact issue_keeps_inv (s := { s with agenda := rest }) hinv hp issued
  · rw [written]
    exact writeAt_inv (s := { s with agenda := rest }) addr v hinv hp
  · exact (exec_effect he).keeps_inv (s := { s with agenda := rest }) hinv hd fun hidle => absurd hidle hp
  · rw [asserted]
    exact inv_of_reset (by simpa [resetBlock, (cutExchange_block s).2] using hz) rfl
  · rw [released]
    exact inv_of_reset hz rfl

/-- Settles O40: the sizes and the form of the engine are parameters of every turn, and the turns that move the block
keep the invariant: acceptance, register writes, phase steps and reset. -/
theorem invariantKeptByEveryStep : Obligations.InvariantKeptByEveryStep := by
  unfold Obligations.InvariantKeptByEveryStep
  exact ⟨fun _ _ h => step_keeps_sizes_ctab h, fun _ _ hinv h => step_keeps_inv hinv h⟩

end Sys2Proof.Machine
end

section
/-! PROOFS. Which step writes which register (10_state.md R50), `STATUS` as a view (R33) and the reset rule
(70_reset_and_hazards.md R230, R231). -/

namespace Sys2Proof.Machine

/-! ### Who writes a register -/

/-- What a step that is no turn of the reset input can do to the block: nothing, the acceptance of a word, a register
write, or the phase step of the command in `CMD`. -/
theorem step_block_cases {s t : State} (h : step s = .next t) (hn : ∀ level rest, s.agenda ≠ .rst level :: rest) :
    t.toBlock = s.toBlock ∨
    (s.phase = .idle ∧ ∃ w rest, s.agenda = .hostWrite 0x00 4 w :: rest ∧ s.rst = false ∧
      issue w { s with agenda := rest } = .next t) ∨
    (s.phase = .idle ∧ ∃ addr v rest, s.agenda = .hostWrite addr 4 v :: rest ∧
      t = writeAt addr v { s with agenda := rest }) ∨
    (s.phase ≠ .idle ∧ ∃ i rest, ExecEffect i { s with agenda := rest } t) := by
  obtain ⟨rest, -, same | ⟨-, read⟩ | ⟨hr, hp, w, ha, issued⟩ | ⟨-, hp, addr, v, ha, -, written⟩ | ⟨-, hp, i, -, he⟩ |
    ⟨-, ha, -⟩ | ⟨-, ha, -⟩⟩ := step_cases s t h
  · exact .inl (by rw [same])
  · exact .inl (by rw [read])
  · exact .inr (.inl ⟨hp, w, rest, ha, hr, issued⟩)
  · exact .inr (.inr (.inl ⟨hp, addr, v, rest, ha, written⟩))
  · exact .inr (.inr (.inr ⟨hp, i, rest, exec_effect he⟩))
  · exact absurd ha (hn _ _)
  · exact absurd ha (hn _ _)

/-- No effect of a command writes `CMD`, `WORD` or the stand-in bytes. -/
theorem ExecEffect.keeps_host_registers {i : Instr} {s t : State} (heff : ExecEffect i s t) :
    t.cmd = s.cmd ∧ t.word = s.word ∧ t.standin = s.standin := by
  cases heff <;> simp

/-- The acceptance of a word writes none of the host's registers but `CMD`. -/
theorem issue_host_registers {w : Word32} {s t : State} (h : issue w s = .next t) :
    t.cmd = w ∧ t.word = s.word ∧ t.standin = s.standin := by
  rcases issue_cases w s t h with ⟨i, -, he⟩ | ⟨-, rfl⟩
  · exact (exec_effect he).keeps_host_registers
  · exact ⟨rfl, rfl, rfl⟩

/-- The offsets of the limbs of `WORD` (20_memory.md R65). -/
theorem word_offset {addr : Nat} {j : Fin 4} (h : regAt addr = some (.word j)) : 0x50 ≤ addr ∧ addr ≤ 0x5C := by
  unfold regAt at h
  split at h <;> simp at h ⊢

/-- A register write that changes `WORD` is one to an offset of its limbs. -/
theorem word_offset_of_writeAt {addr : Nat} {v : Word32} {s : State} (h : (writeAt addr v s).word ≠ s.word) :
    0x50 ≤ addr ∧ addr ≤ 0x5C := by
  unfold writeAt at h
  cases hr : regAt addr with
  | none => simp [hr] at h
  | some r =>
    cases r with
    | word j => exact word_offset hr
    | _ =>
      by_cases hl : s.lifecycle = .unconfigured <;> simp [hr, writeReg, hl] at h

/-- Settles O44: of the steps that are no turn of the reset input, only a register write can change `WORD`. -/
theorem wordChangesOnlyByHost : Obligations.WordChangesOnlyByHost := by
  unfold Obligations.WordChangesOnlyByHost
  intro s t h hn hword
  rcases step_block_cases h hn with same | ⟨-, w, rest, -, -, issued⟩ | ⟨hp, addr, v, rest, ha, rfl⟩ |
    ⟨-, i, rest, heff⟩
  · exact absurd (congrArg Block.word same) hword
  · exact absurd (issue_host_registers issued).2.1 hword
  · exact ⟨hp, addr, v, rest, ha, word_offset_of_writeAt hword⟩
  · exact absurd heff.keeps_host_registers.2.1 hword

/-- The result registers, the lifecycle and the table change in their phases only (10_state.md R50). -/
def ResultWriters (s t : Block) : Prop :=
  (t.txf ≠ s.txf ∨ t.txlen ≠ s.txlen → s.phase = .encode) ∧
  (t.rxf ≠ s.rxf ∨ t.rxlen ≠ s.rxlen → s.phase = .exchange) ∧
  (t.full ≠ s.full → s.phase = .reassemble) ∧
  (t.payload ≠ s.payload ∨ t.crcrx ≠ s.crcrx ∨ t.crccalc ≠ s.crccalc → s.phase = .reassemble ∨ s.phase = .check) ∧
  (t.creg ≠ s.creg → s.phase = .encode ∨ s.phase = .check ∨ (s.phase = .idle ∧ s.lifecycle = .ready)) ∧
  (t.lifecycle ≠ s.lifecycle ∨ t.ctab ≠ s.ctab → s.phase = .idle ∧ s.lifecycle = .unconfigured)

/-- Every effect of a command writes its result registers in their phases. -/
theorem ExecEffect.resultWriters {i : Instr} {s t : State} (heff : ExecEffect i s t) :
    ResultWriters s.toBlock t.toBlock := by
  unfold ResultWriters
  cases heff <;> simp [*]

/-- Every step that is no turn of the reset input writes the result registers in their phases. -/
theorem step_resultWriters {s t : State} (h : step s = .next t) (hn : ∀ level rest, s.agenda ≠ .rst level :: rest) :
    ResultWriters s.toBlock t.toBlock := by
  rcases step_block_cases h hn with same | ⟨-, w, rest, -, -, issued⟩ | ⟨-, addr, v, rest, -, rfl⟩ | ⟨-, i, rest, heff⟩
  · simp [ResultWriters, same]
  · rcases issue_cases w _ t issued with ⟨i, -, he⟩ | ⟨-, rfl⟩
    · exact (exec_effect he).resultWriters
    · simp [ResultWriters]
  · obtain ⟨_, _, _, _, _, _, _, _, _, _, _, e⟩ := writeAt_frame addr v { s with agenda := rest }
    simp [ResultWriters, e]
  · exact heff.resultWriters

/-- The stand-in bytes change only while idle, and `CMD` only by the host's write of the word. -/
theorem step_host_writers {s t : State} (h : step s = .next t) (hn : ∀ level rest, s.agenda ≠ .rst level :: rest) :
    (t.standin ≠ s.standin → s.phase = .idle) ∧
    (t.cmd ≠ s.cmd → s.phase = .idle ∧ ∃ rest, s.agenda = .hostWrite 0x00 4 t.cmd :: rest) := by
  rcases step_block_cases h hn with same | ⟨hp, w, rest, ha, -, issued⟩ | ⟨hp, addr, v, rest, -, rfl⟩ |
    ⟨-, i, rest, heff⟩
  · simp [same]
  · obtain ⟨hcmd, -, -⟩ := issue_host_registers issued
    exact ⟨fun _ => hp, fun _ => ⟨hp, rest, hcmd.symm ▸ ha⟩⟩
  · obtain ⟨_, _, _, _, _, _, _, _, _, _, _, e⟩ := writeAt_frame addr v { s with agenda := rest }
    simp [e, hp]
  · obtain ⟨hcmd, -, hstandin⟩ := heff.keeps_host_registers
    exact ⟨fun hne => absurd hstandin hne, fun hne => absurd hcmd hne⟩

/-! ### Who writes the status -/

/-- An effect changes `CRCMM` in CHECK only, and `MHW` only to 1, in EXCHANGE with no bus (10_state.md R36, R37). -/
theorem ExecEffect.flag_writers {i : Instr} {s t : State} (heff : ExecEffect i s t) :
    (t.crcmm ≠ s.crcmm → s.phase = .check) ∧
    (t.mhw ≠ s.mhw → s.phase = .exchange ∧ s.nobus = true ∧ t.mhw = true) := by
  by_cases hb : s.nobus = true <;> cases heff <;> simp [*]

/-- An effect changes `DONE` only when it ends the command, and sets it only without an error (10_state.md R35). -/
theorem ExecEffect.done_writers {i : Instr} {s t : State} (heff : ExecEffect i s t) :
    (t.done ≠ s.done → t.phase = .idle) ∧ (t.done = true → s.done = false → t.err = s.err) := by
  cases heff <;> simp_all

/-- The errors an effect can raise, each with its phase (60_exceptions.md R201 to R210). -/
theorem ExecEffect.err_cases {i : Instr} {s t : State} (heff : ExecEffect i s t) :
    t.err = s.err ∨
    (s.phase = .idle ∧ (t.err = .badState ∨
      (t.err = .configurationError ∧ s.lifecycle = .unconfigured ∧ t.lifecycle = .failed))) ∨
    (s.phase = .encode ∧ t.err = .overflowError ∧ t.done = false ∧ t.phase = .idle) := by
  cases heff <;> simp [*]

/-- The status that the acceptance of a word leaves in an idle block (30_encoding.md R81). -/
theorem issue_status {w : Word32} {s t : State} (hp : s.phase = .idle) (h : issue w s = .next t) :
    t.crcmm = false ∧ t.mhw = false ∧ (t.done = true → t.phase = .idle ∧ t.err = .none) ∧
    (t.err = .none ∨ t.err = .illegalCommand ∨ t.err = .badState ∨
      (t.err = .configurationError ∧ s.lifecycle = .unconfigured ∧ t.lifecycle = .failed)) := by
  rcases issue_cases w s t h with ⟨i, -, he⟩ | ⟨-, rfl⟩
  · have heff := exec_effect he
    have hcrcmm : t.crcmm = false := by simpa [hp] using heff.flag_writers.1
    have hmhw : t.mhw = false := by simpa [hp] using heff.flag_writers.2
    obtain ⟨hends, herr⟩ := heff.done_writers
    refine ⟨hcrcmm, hmhw, fun ht => ⟨hends (by simp [ht]), herr ht rfl⟩, ?_⟩
    rcases heff.err_cases with noError | ⟨-, badState | configuration⟩ | ⟨encoding, -⟩
    · exact .inl noError
    · exact .inr (.inr (.inl badState))
    · exact .inr (.inr (.inr configuration))
    · simp [hp] at encoding
  · simp

/-- What a step does to the status: nothing but at acceptance and in the phases of the running command. -/
theorem step_status_cases {s t : State} (h : step s = .next t) (hn : ∀ level rest, s.agenda ≠ .rst level :: rest) :
    (t.done = s.done ∧ t.err = s.err ∧ t.crcmm = s.crcmm ∧ t.mhw = s.mhw) ∨
    (s.accepts ∧ ∃ w rest, issue w { s with agenda := rest } = .next t) ∨
    (s.phase ≠ .idle ∧ ∃ i rest, ExecEffect i { s with agenda := rest } t) := by
  rcases step_block_cases h hn with same | ⟨hp, w, rest, ha, hr, issued⟩ | ⟨-, addr, v, rest, -, rfl⟩ | running
  · exact .inl (by simp [same])
  · exact .inr (.inl ⟨⟨hr, hp, w, rest, ha⟩, w, rest, issued⟩)
  · obtain ⟨_, _, _, _, _, _, _, _, _, _, _, e⟩ := writeAt_frame addr v { s with agenda := rest }
    exact .inl (by simp [e])
  · exact .inr (.inr running)

/-- A step changes `CRCMM` and `MHW` at acceptance, to 0, and in CHECK and EXCHANGE. -/
theorem step_flag_writers {s t : State} (h : step s = .next t) (hn : ∀ level rest, s.agenda ≠ .rst level :: rest) :
    (t.crcmm ≠ s.crcmm → (s.accepts ∧ t.crcmm = false) ∨ s.phase = .check) ∧
    (t.mhw ≠ s.mhw → (s.accepts ∧ t.mhw = false) ∨ (s.phase = .exchange ∧ s.nobus = true ∧ t.mhw = true)) := by
  rcases step_status_cases h hn with ⟨-, -, hcrcmm, hmhw⟩ | ⟨hacc, w, rest, issued⟩ | ⟨-, i, rest, heff⟩
  · exact ⟨fun hne => absurd hcrcmm hne, fun hne => absurd hmhw hne⟩
  · obtain ⟨hcrcmm, hmhw, -⟩ := issue_status (s := { s with agenda := rest }) hacc.2.1 issued
    exact ⟨fun _ => .inl ⟨hacc, hcrcmm⟩, fun _ => .inl ⟨hacc, hmhw⟩⟩
  · obtain ⟨hcrcmm, hmhw⟩ := heff.flag_writers
    exact ⟨fun hne => .inr (hcrcmm hne), fun hne => .inr (hmhw hne)⟩

/-- A step changes `DONE` at acceptance and when a command ends, and sets it only without a new error. -/
theorem step_done_writers {s t : State} (h : step s = .next t) (hn : ∀ level rest, s.agenda ≠ .rst level :: rest) :
    (t.done ≠ s.done → s.accepts ∨ (s.phase ≠ .idle ∧ t.phase = .idle)) ∧
    (t.done = true ∧ s.done = false → t.phase = .idle ∧ (t.err = s.err ∨ t.err = .none)) := by
  rcases step_status_cases h hn with ⟨hdone, -⟩ | ⟨hacc, w, rest, issued⟩ | ⟨hp, i, rest, heff⟩
  · simp [hdone]
  · obtain ⟨-, -, hdone, -⟩ := issue_status (s := { s with agenda := rest }) hacc.2.1 issued
    exact ⟨fun _ => .inl hacc, fun ⟨ht, _⟩ => ⟨(hdone ht).1, .inr (hdone ht).2⟩⟩
  · obtain ⟨hends, herr⟩ := heff.done_writers
    exact ⟨fun hne => .inr ⟨hp, hends hne⟩, fun ⟨ht, hs⟩ => ⟨hends (by simp [ht, hs]), .inl (herr ht hs)⟩⟩

/-- A step changes `ERR` at acceptance, and in ENCODE to OverflowError. -/
theorem step_err_writers {s t : State} (h : step s = .next t) (hn : ∀ level rest, s.agenda ≠ .rst level :: rest) :
    t.err ≠ s.err →
      (s.accepts ∧ (t.err = .none ∨ t.err = .illegalCommand ∨ t.err = .badState ∨
        (t.err = .configurationError ∧ s.lifecycle = .unconfigured ∧ t.lifecycle = .failed))) ∨
      (s.phase = .encode ∧ t.err = .overflowError ∧ t.done = false ∧ t.phase = .idle) := by
  intro hne
  rcases step_status_cases h hn with ⟨-, herr, -⟩ | ⟨hacc, w, rest, issued⟩ | ⟨hp, i, rest, heff⟩
  · exact absurd herr hne
  · obtain ⟨-, -, -, herr⟩ := issue_status (s := { s with agenda := rest }) hacc.2.1 issued
    exact .inl ⟨hacc, herr⟩
  · rcases heff.err_cases with same | ⟨idle, -⟩ | overflow
    · exact absurd same hne
    · exact absurd idle hp
    · exact .inr overflow

/-- The acceptance of a command leaves both flags at 0, and `DONE` at 1 only without an error. -/
theorem status_after_acceptance {s t : State} (h : step s = .next t) (hacc : s.accepts) :
    t.crcmm = false ∧ t.mhw = false ∧ (t.done = true → t.err = .none) := by
  obtain ⟨hr, hp, w, rest, ha⟩ := hacc
  rw [step_hostWrite_cmd hr ha hp] at h
  obtain ⟨hcrcmm, hmhw, hdone, -⟩ := issue_status (s := { s with agenda := rest }) hp h
  exact ⟨hcrcmm, hmhw, fun ht => (hdone ht).2⟩

/-- In a state that meets the invariant a running command has no status to clear but `MHW`, which no phase clears. -/
theorem status_cleared_at_acceptance {s t : State} (h : step s = .next t)
    (hn : ∀ level rest, s.agenda ≠ .rst level :: rest) (hinv : s.Inv)
    (hcleared : (s.done = true ∧ t.done = false) ∨ (s.err ≠ .none ∧ t.err = .none) ∨
      (s.crcmm = true ∧ t.crcmm = false) ∨ (s.mhw = true ∧ t.mhw = false)) : s.accepts := by
  obtain ⟨-, ⟨hbusy, -⟩, -⟩ := (inv_iff s).mp hinv
  rcases hcleared with ⟨hs, ht⟩ | ⟨hs, ht⟩ | ⟨hs, ht⟩ | ⟨hs, ht⟩
  · rcases (step_done_writers h hn).1 (by simp [hs, ht]) with hacc | ⟨hp, -⟩
    · exact hacc
    · simp [(hbusy hp).2.1] at hs
  · rcases step_err_writers h hn (by simpa [ht] using hs.symm) with ⟨hacc, -⟩ | ⟨-, overflow, -⟩
    · exact hacc
    · simp [overflow] at ht
  · rcases (step_flag_writers h hn).1 (by simp [hs, ht]) with ⟨hacc, -⟩ | hp
    · exact hacc
    · simp [(hbusy (by simp [hp])).2.2] at hs
  · rcases (step_flag_writers h hn).2 (by simp [hs, ht]) with ⟨hacc, -⟩ | ⟨-, -, set⟩
    · exact hacc
    · simp [set] at ht

/-- Settles O45: register by register, from what a step can do to the block. -/
theorem registersHaveTheirWriters : Obligations.RegistersHaveTheirWriters := by
  unfold Obligations.RegistersHaveTheirWriters
  intro s t h hn
  obtain ⟨htx, hrx, hfull, hcheck, hcreg, hlife⟩ := step_resultWriters h hn
  obtain ⟨hstandin, hcmd⟩ := step_host_writers h hn
  obtain ⟨hcrcmm, hmhw⟩ := step_flag_writers h hn
  obtain ⟨hdone, hset⟩ := step_done_writers h hn
  refine ⟨htx, hrx, hfull, hcheck, hcreg, ?crcmmSet, ?mhwSet, hlife, hstandin, hcmd, hdone, hset, step_err_writers h hn,
    ?crcmmCleared, ?mhwCleared, status_after_acceptance h, status_cleared_at_acceptance h hn⟩
  all_goals rintro ⟨ht, hs⟩
  case crcmmSet => simpa [ht, hs] using hcrcmm
  case mhwSet => simpa [ht, hs] using hmhw
  case crcmmCleared => exact (hcrcmm (by simp [ht, hs])).imp_left And.left
  case mhwCleared =>
    have hacc := hmhw (by simp [ht, hs])
    simp only [hs, Bool.false_eq_true, and_false, or_false] at hacc
    exact hacc.1

/-! ### `STATUS` -/

/-- A bit of a register view at its place. -/
theorem bitAt_getElem (b : Bool) (n k : Nat) (hk : k < 32) : (bitAt b n)[k] = (decide (k = n) && b) := by
  by_cases h : k = n
  · subst h
    simp [bitAt]
  · simp [bitAt, h]
    omega

/-- `STATUS` bit by bit: each field at its place (10_state.md R33). -/
theorem status_getElem (s : State) (k : Nat) (hk : k < 32) :
    s.status[k] =
      (decide (k = 0) && s.busy || decide (k = 1) && s.done || !decide (k < 2) && s.lifecycle.code.getLsbD (k - 2) ||
        !decide (k < 4) && s.phase.code.getLsbD (k - 4) || !decide (k < 8) && s.err.code.getLsbD (k - 8) ||
        decide (k = 12) && s.crcmm || decide (k = 13) && s.mhw) := by
  simp [State.status, bitAt_getElem]

/-- `STATUS[3:2]` is the code of `LIFECYCLE`: nothing else reaches those bits. -/
theorem status_lifecycle (s : State) : s.status.extractLsb' 2 2 = s.lifecycle.code := by
  ext i hi
  interval_cases i <;> simp [status_getElem]

/-- `STATUS[6:4]` is the code of `PHASE`: nothing else reaches those bits. -/
theorem status_phase (s : State) : s.status.extractLsb' 4 3 = s.phase.code := by
  ext i hi
  interval_cases i <;> simp [status_getElem]

/-- `STATUS[11:8]` is the code of `ERR`: nothing else reaches those bits. -/
theorem status_err (s : State) : s.status.extractLsb' 8 4 = s.err.code := by
  ext i hi
  interval_cases i <;> simp [status_getElem]

/-- No field of `STATUS` lies above bit 13. -/
theorem status_reserved (s : State) : s.status.extractLsb' 14 18 = 0 := by
  ext i hi
  interval_cases i <;> simp [status_getElem]

/-- Settles O50: bit by bit from the places, and the codes as numbers. -/
theorem statusIsAView : Obligations.StatusIsAView := by
  unfold Obligations.StatusIsAView
  intro s
  refine ⟨?_, ?_, ?_, ?_, ?_, ?_, ?_, ?_, status_reserved s⟩
  · simp [status_getElem, State.busy, bne, beq_eq_decide]
  · simp [status_getElem]
  · rw [status_lifecycle]
    cases s.lifecycle <;> rfl
  · rw [status_phase]
    cases s.phase <;> rfl
  · simp [status_getElem]
  · rw [status_err]
    cases s.err <;> rfl
  · simp [status_getElem]
  · simp [status_getElem]

/-! ### The reset input -/

/-- While the reset input is asserted a turn that does not release it is dropped. -/
theorem step_in_reset {s : State} {u : Turn} {rest : List Turn} (hr : s.rst = true) (ha : s.agenda = u :: rest)
    (hu : u ≠ .rst false) : step s = .next { s with agenda := rest } := by
  have hstep : step s = turnInReset u rest s := by simp [step, takeTurn, ha, hr]
  rw [hstep]
  cases u with
  | rst level => cases level <;> simp [turnInReset] at hu ⊢
  | _ => rfl

/-- Both edges of the reset input leave the reset values in a block of the same sizes. -/
theorem step_reset_edge {s : State} {level : Bool} {rest : List Turn} (ha : s.agenda = .rst level :: rest)
    (hr : s.rst = !level) :
    ∃ t, step s = .next t ∧ t.rst = level ∧ t.agenda = rest ∧ t.toBlock = Block.reset s.sizes s.ctab.isSome := by
  cases level with
  | true =>
    obtain ⟨hb, hz⟩ := cutExchange_block s
    refine ⟨resetBlock { cutExchange s with agenda := rest, rst := true }, ?_, rfl, rfl, ?_⟩
    · simp [step, takeTurn, turnRunning, ha, hr]
    · simp [resetBlock, hb, hz]
  | false =>
    refine ⟨resetBlock { s with agenda := rest, rst := false }, ?_, rfl, rfl, rfl⟩
    simp [step, takeTurn, turnInReset, ha, hr]

/-- Settles O56: by the reset values, and the equation of each turn met in reset or at its edges. -/
theorem resetRule : Obligations.ResetRule := by
  unfold Obligations.ResetRule
  refine ⟨⟨rfl, rfl, by decide, by decide⟩, fun s u rest hr ha hu => step_in_reset hr ha hu, ?edges⟩
  intro s level rest ha hr
  obtain ⟨t, ht, hrst, hagenda, hb⟩ := step_reset_edge ha hr
  refine ⟨t, ht, hrst, hagenda, ?_⟩
  simp [hb, Block.reset, State.valueAt, regAt, State.regValue, Config.bpu]

end Sys2Proof.Machine
end

section
/-! PROOFS. The bus (20_memory.md R70, R71): which step gives it anything, which frames it can answer, and the stand-in
bytes that take its place. -/

namespace Sys2Proof.Machine

/-! ### Who gives the bus anything -/

/-- The bus is given nothing, or in phase EXCHANGE with a bus present the outbound frame, once (20_memory.md R70). -/
def ExchangesAtMostOnce (s t : State) : Prop :=
  t.busLog = s.busLog ∨
  (s.phase = .exchange ∧ s.nobus = false ∧ t.rxlen = s.txlen ∧ t.busLog = s.busLog ++ [exchangeOf s])

/-- The EXCHANGE phase makes its one exchange if a bus is present. -/
theorem storeInbound_exchangesAtMostOnce {s : State} (hp : s.phase = .exchange) :
    ExchangesAtMostOnce s (storeInbound s) := by
  cases hb : s.nobus with
  | true => exact .inl (by simp [hb])
  | false => exact .inr ⟨hp, hb, rfl, by simp [hb]⟩

/-- Of the effects of a command only those of the EXCHANGE phase reach the bus. -/
theorem ExecEffect.exchangesAtMostOnce {i : Instr} {s t : State} (heff : ExecEffect i s t) :
    ExchangesAtMostOnce s t := by
  cases heff with
  | written c v hp hi => exact storeInbound_exchangesAtMostOnce hp
  | received c v hp hi => exact storeInbound_exchangesAtMostOnce hp
  | _ => exact .inl rfl

/-- The acceptance of a word in an idle block gives the bus nothing. -/
theorem issue_keeps_busLog {w : Word32} {s t : State} (hp : s.phase = .idle) (h : issue w s = .next t) :
    t.busLog = s.busLog := by
  rcases issue_cases w s t h with ⟨i, -, he⟩ | ⟨-, rfl⟩
  · rcases (exec_effect he).exchangesAtMostOnce with same | ⟨exchanging, -⟩
    · exact same
    · simp [hp] at exchanging
  · rfl

/-- Settles O46: of the steps that are no turn of the reset input, only a phase step of a command reaches the bus. -/
theorem oneExchangePerTransaction : Obligations.OneExchangePerTransaction := by
  unfold Obligations.OneExchangePerTransaction
  intro s t h hn
  obtain ⟨rest, -, same | ⟨-, read⟩ | ⟨-, hp, w, -, issued⟩ | ⟨-, -, addr, v, -, -, written⟩ | ⟨-, -, i, -, he⟩ |
    ⟨-, ha, -⟩ | ⟨-, ha, -⟩⟩ := step_cases s t h
  · exact .inl (by rw [same])
  · exact .inl (by rw [read])
  · exact .inl (issue_keeps_busLog (s := { s with agenda := rest }) hp issued)
  · obtain ⟨_, _, _, _, _, _, _, _, _, _, _, e⟩ := writeAt_frame addr v { s with agenda := rest }
    exact .inl (by rw [written, e])
  · exact (exec_effect he).exchangesAtMostOnce
  · exact absurd ha (hn _ _)
  · exact absurd ha (hn _ _)

/-! ### The inbound frame -/

/-- The EXCHANGE phase of WRITE ends the command (42_transactions.md R160). -/
theorem exec_write_exchange {s : State} (c v : Bool) (hp : s.phase = .exchange) :
    exec (.write c v) s = .next (finish (storeInbound s)) := by
  simp [exec, execWrite, exchangePhase, hp]

/-- The EXCHANGE phase of READ goes on to REASSEMBLE (42_transactions.md R161). -/
theorem exec_read_exchange {s : State} (c v : Bool) (hp : s.phase = .exchange) :
    exec (.read c v) s = .next (toReassemble (storeInbound s)) := by
  simp [exec, execRead, exchangePhase, hp]

/-- `RXF` holds the inbound frame after the EXCHANGE phase, if it has the outbound length and fits. -/
theorem rxFrame_storeInbound {s : State} (hlen : (inboundFrame s s.txlen).length = s.txlen)
    (hfit : s.txlen ≤ s.sizes.nfMax) : (storeInbound s).rxFrame = inboundFrame s s.txlen := by
  have hload := bufferPrefix_loadBuffer (inboundFrame s s.txlen) (s.draws + s.txlen) s.sizes.nfMax (by omega)
  rwa [hlen] at hload

/-- The bus answers the bytes it has ready when there are as many as it was given. -/
theorem busAnswer_of_length {s : State} {n : Nat} (h : s.busIn.length = n) : busAnswer s n = s.busIn := by
  have htake := busAnswer_take s n
  rwa [h, List.take_of_length_le (busAnswer_length s n).le, List.take_of_length_le h.le] at htake

/-- With a bus the inbound frame is what the bus has ready, if that has the outbound length. -/
theorem rxFrame_storeInbound_bus {s : State} (hb : s.nobus = false) (hin : s.busIn.length = s.txlen)
    (hfit : s.txlen ≤ s.sizes.nfMax) : (storeInbound s).rxFrame = s.busIn := by
  have hframe : inboundFrame s s.txlen = s.busIn := by simp [inboundFrame, hb, busAnswer_of_length hin]
  rw [rxFrame_storeInbound (by rw [hframe, hin]) hfit, hframe]

/-- With no bus the inbound frame is the stand-in bytes. -/
theorem rxFrame_storeInbound_noBus {s : State} (hb : s.nobus = true) (hfit : s.txlen ≤ s.sizes.nfMax)
    (hs : s.standin.length = s.sizes.nfMax) : (storeInbound s).rxFrame = bufferPrefix s.standin s.txlen := by
  rw [rxFrame_storeInbound (inboundFrame_length s _ (by omega)) hfit]
  simp [inboundFrame, hb]

/-- Settles O47: the bus has the frame ready. -/
theorem anyBusAnswerIsPossible : Obligations.AnyBusAnswerIsPossible := by
  unfold Obligations.AnyBusAnswerIsPossible
  intro c v s inb hp hb hfit hlen
  have hrx := rxFrame_storeInbound_bus (s := { s with busIn := inb }) hb hlen hfit
  exact ⟨_, _, exec_write_exchange c v hp, hrx, exec_read_exchange c v hp, hrx⟩

/-- With no bus `MHW` is set and the bus agent keeps its bytes and its log (20_memory.md R71). -/
theorem storeInbound_noBus {s : State} (hb : s.nobus = true) :
    (storeInbound s).mhw = true ∧ (storeInbound s).busLog = s.busLog ∧ (storeInbound s).busIn = s.busIn := by
  simp [hb]

/-- Settles O48: the EXCHANGE phase is the same in both transactions, and with no bus it takes the stand-in bytes. -/
theorem standInReplacesTheBus : Obligations.StandInReplacesTheBus := by
  unfold Obligations.StandInReplacesTheBus
  intro c v s hp hb hfit hs
  have hrx := rxFrame_storeInbound_noBus hb hfit hs
  obtain ⟨hmhw, hlog, hin⟩ := storeInbound_noBus hb
  refine ⟨_, _, exec_write_exchange c v hp, exec_read_exchange c v hp, hrx, rfl, hmhw, hmhw, hlog, hlog, hin, hin, ?_⟩
  intro hzero
  exact hrx.trans (by simp [bufferPrefix, hzero, hfit])

end Sys2Proof.Machine
end

section
/-! PROOFS. The register space (20_memory.md R62 to R66): limbs and byte lanes, the map as a bijection between named
registers and their offsets, and what an access reads, writes and leaves unchanged. -/

namespace Sys2Proof.Machine

/-! ### Limbs -/

/-- A value modulo `n + 1` limbs is limb `n` in front of the limbs below it. -/
theorem mod_limbs_succ (x n : Nat) :
    x % 2 ^ (32 * (n + 1)) = x % 2 ^ (32 * n) + (limb x n).toNat * 2 ^ (32 * n) := by
  rw [limb, BitVec.toNat_ofNat, Nat.shiftRight_eq_div_pow, Nat.mul_add, pow_add, Nat.mul_one, Nat.mod_mul,
    Nat.mul_comm (2 ^ (32 * n))]

/-- The lowest `n` limbs of a value add up to it modulo `2 ^ (32 * n)`. -/
theorem sum_limbs (x n : Nat) : ∑ j ∈ Finset.range n, (limb x j).toNat * 2 ^ (32 * j) = x % 2 ^ (32 * n) := by
  induction n with
  | zero => simp [Nat.mod_one]
  | succ n ih => rw [Finset.sum_range_succ, ih, mod_limbs_succ]

/-- A limb depends only on the value modulo the limbs up to it. -/
theorem limb_mod {m k : Nat} (x : Nat) (h : k < m) : limb (x % 2 ^ (32 * m)) k = limb x k := by
  apply BitVec.eq_of_getLsbD_eq
  intro i hi
  simp [limb, BitVec.getLsbD_ofNat, Nat.testBit_mod_two_pow, show 32 * k + i < 32 * m by omega]

/-- A limb depends only on the value above the limbs below it. -/
theorem limb_shiftRight {m k : Nat} (x : Nat) (h : m ≤ k) : limb (x >>> (32 * m)) (k - m) = limb x k := by
  rw [limb, limb, ← Nat.shiftRight_add]
  congr 2
  omega

/-- The limbs that were not set read as before. -/
theorem limb_setLimb_of_ne {j k : Nat} (width x : Nat) (v : Word32) (h : k ≠ j) :
    limb (setLimb width x j v) k = limb x k := by
  rcases Nat.lt_or_gt_of_ne h with hlt | hgt
  · rw [← limb_mod _ hlt, setLimb_mod, limb_mod x hlt]
  · rw [← limb_shiftRight _ hgt, Nat.succ_eq_add_one, setLimb_shiftRight_next, limb_shiftRight x hgt]

/-! ### Byte lanes -/

/-- A lane is the byte of the buffer, or 0 beyond it. -/
theorem lane_eq (b : Buffer) (i : Nat) : lane b i = (b[i]?).getD 0 := by
  simp [lane]

/-- Byte `k` of a buffer register is the lane at `4j + k`. -/
theorem bufferLimb_byte (b : Buffer) (j : Nat) (k : Fin 4) :
    (bufferLimb b j).extractLsb' (8 * k.val) 8 = lane b (4 * j + k.val) := by
  fin_cases k
  · exact BitVec.extractLsb'_append_eq_right
  · exact (BitVec.extractLsb'_append_eq_of_le (by decide)).trans BitVec.extractLsb'_append_eq_right
  · exact (BitVec.extractLsb'_append_eq_of_le (by decide)).trans <|
      (BitVec.extractLsb'_append_eq_of_le (by decide)).trans BitVec.extractLsb'_append_eq_right
  · exact (BitVec.extractLsb'_append_eq_of_le (by decide)).trans <|
      (BitVec.extractLsb'_append_eq_of_le (by decide)).trans BitVec.extractLsb'_append_eq_left

/-- Two register words with the same four bytes are the same. -/
theorem eq_of_bytes {x y : Word32} (h : ∀ k : Fin 4, x.extractLsb' (8 * k.val) 8 = y.extractLsb' (8 * k.val) 8) :
    x = y := by
  apply BitVec.eq_of_getLsbD_eq
  intro i hi
  have hbyte := congrArg (BitVec.getLsbD · (i % 8)) (h ⟨i / 8, by omega⟩)
  simpa [Nat.mod_lt, Nat.div_add_mod] using hbyte

/-- Settles O49: the sum of the limbs is the value, since it fits them; the lanes are the bytes. -/
theorem lanesAndLimbs : Obligations.LanesAndLimbs := by
  unfold Obligations.LanesAndLimbs
  refine ⟨fun x n hx => ?limbs, fun b j k => ?lanes⟩
  case limbs => rw [sum_limbs, Nat.mod_eq_of_lt hx]
  case lanes => rw [bufferLimb_byte, lane_eq]

/-- The bytes of a buffer register after a write to it: those of the value, as far as the buffer has them. -/
theorem bufferLimb_setBufferLimb_byte (b : Buffer) (j : Nat) (v : Word32) (k : Fin 4) :
    (bufferLimb (setBufferLimb b j v) j).extractLsb' (8 * k.val) 8 =
      if 4 * j + k.val < b.length then v.extractLsb' (8 * k.val) 8 else 0 := by
  rw [bufferLimb_byte]
  split
  · rename_i hk
    rw [lane_setBufferLimb b j _ v hk, if_pos (by omega), show (4 * j + k.val) % 4 = k.val by omega]
  · exact lane_beyond _ _ (by simp; omega)

/-- A buffer register that the buffer holds whole reads back what was written. -/
theorem bufferLimb_setBufferLimb_whole {b : Buffer} {j : Nat} (v : Word32) (h : 4 * (j + 1) ≤ b.length) :
    bufferLimb (setBufferLimb b j v) j = v :=
  eq_of_bytes fun k => by rw [bufferLimb_setBufferLimb_byte, if_pos (by omega)]

/-- The buffer registers that were not written read as before. -/
theorem bufferLimb_setBufferLimb_of_ne {j k : Nat} (b : Buffer) (v : Word32) (h : k ≠ j) :
    bufferLimb (setBufferLimb b j v) k = bufferLimb b k := by
  refine eq_of_bytes fun n => ?_
  rw [bufferLimb_byte, bufferLimb_byte]
  by_cases hn : 4 * k + n.val < b.length
  · rw [lane_setBufferLimb b j _ v hn, if_neg (by omega)]
  · rw [lane_beyond _ _ (by simpa using hn), lane_beyond _ _ (by simpa using hn)]

/-! ### The map -/

/-- The offset of a named register (20_memory.md R65). `regAt_eq_some_iff` ties it to the map. -/
def RegName.offset : RegName → Nat
  | .cmd => 0x00
  | .status => 0x04
  | .txlen => 0x08
  | .rxlen => 0x0C
  | .bussel => 0x10
  | .ckrate => 0x14
  | .wlen => 0x18
  | .cwidth => 0x1C
  | .cpoly j => 0x20 + 4 * j.val
  | .cinit j => 0x28 + 4 * j.val
  | .creg j => 0x30 + 4 * j.val
  | .crcrx j => 0x38 + 4 * j.val
  | .crccalc j => 0x40 + 4 * j.val
  | .payload j => 0x48 + 4 * j.val
  | .word j => 0x50 + 4 * j.val
  | .full j => 0x60 + 4 * j.val
  | .txf j => 0x80 + 4 * j.val
  | .rxf j => 0x90 + 4 * j.val
  | .standin j => 0xA0 + 4 * j.val

/-- The map gives each named register its offset, and no other. -/
theorem regAt_eq_some_iff {addr : Nat} {r : RegName} : regAt addr = some r ↔ addr = r.offset := by
  constructor
  · intro h
    unfold regAt at h
    split at h <;> cases h <;> rfl
  · rintro rfl
    cases r with
    | cpoly j | cinit j | creg j | crcrx j | crccalc j | payload j | word j | full j | txf j | rxf j | standin j =>
      revert j
      decide
    | _ => rfl

/-- The map at the offset of a named register. -/
@[simp] theorem regAt_offset (r : RegName) : regAt r.offset = some r :=
  regAt_eq_some_iff.mpr rfl

/-- An offset is that of a named register or a reserved one. -/
theorem regAt_cases (addr : Nat) : (∃ r : RegName, addr = r.offset) ∨ regAt addr = none := by
  cases h : regAt addr with
  | none => exact .inr rfl
  | some r => exact .inl ⟨r, regAt_eq_some_iff.mp h⟩

/-- The offset of a register reads the register. -/
theorem valueAt_offset (s : State) (r : RegName) : s.valueAt r.offset = s.regValue r := by
  simp [State.valueAt]

/-- A reserved offset reads 0. -/
theorem valueAt_reserved {addr : Nat} (s : State) (h : regAt addr = none) : s.valueAt addr = 0 := by
  simp [State.valueAt, h]

/-- A write at the offset of a register is a write to the register. -/
theorem writeAt_offset (r : RegName) (v : Word32) (s : State) : writeAt r.offset v s = writeReg r v s := by
  simp [writeAt]

/-- A write at a reserved offset does nothing. -/
theorem writeAt_reserved {addr : Nat} (v : Word32) (s : State) (h : regAt addr = none) : writeAt addr v s = s := by
  simp [writeAt, h]

/-- The gap between `FULL` and `TXF` and everything past `STANDIN` are reserved. -/
theorem regAt_eq_none {addr : Nat} (h : 0x70 ≤ addr ∧ addr ≤ 0x7C ∨ 0xB0 ≤ addr) : regAt addr = none := by
  rcases regAt_cases addr with ⟨r, rfl⟩ | hnone
  · cases r <;> simp only [RegName.offset] at h <;> omega
  · exact hnone

/-- A byte of a run of four buffer registers is a byte of the buffer, or 0 beyond it. -/
theorem valueAt_lane {s : State} {b : Buffer} {base : Nat} (r : Fin 4 → RegName)
    (hoff : ∀ j, (r j).offset = base + 4 * j.val) (hval : ∀ j, s.regValue (r j) = bufferLimb b j.val) (i : Fin 16) :
    (s.valueAt (base + 4 * (i.val / 4))).extractLsb' (8 * (i.val % 4)) 8 = (b[i.val]?).getD 0 := by
  have hbyte := bufferLimb_byte b (i.val / 4) ⟨i.val % 4, by omega⟩
  rw [Nat.div_add_mod, lane_eq, ← hval ⟨i.val / 4, by omega⟩, ← valueAt_offset, hoff] at hbyte
  exact hbyte

/-- An aligned offset in a run of `n` registers from `base` is that of one of them. -/
theorem exists_limb_offset {addr base : Nat} (n : Nat) (hlo : base ≤ addr) (hhi : addr < base + 4 * n)
    (ha : addr % 4 = 0) (hb : base % 4 = 0) : ∃ j : Fin n, addr = base + 4 * j.val :=
  ⟨⟨(addr - base) / 4, by omega⟩, by simp only; omega⟩

/-! ### Registers made of fields -/

/-- The bits of `BUSSEL`: two bytes, the clock mode in bits 16 and 17, `NOBUS` in bit 31 (20_memory.md R65). -/
theorem bussel_getElem (s : State) (k : Nat) (hk : k < 32) :
    (s.regValue .bussel)[k] =
      (s.busidx.getLsbD k || !decide (k < 8) && s.devidx.getLsbD (k - 8) ||
        !decide (k < 16) && s.ckmode.getLsbD (k - 16) || decide (k = 31) && s.nobus) := by
  simp [State.regValue, bitAt_getElem]

/-- The bits of the register of `WLEN` and `BPU`: 16 bits of `WLEN`, and `BPU = 8` above them (20_memory.md R65). -/
theorem wlen_getElem (s : State) (k : Nat) (hk : k < 32) :
    (s.regValue .wlen)[k] = (s.wlen.getLsbD k || decide (k = 19)) := by
  have hbpu : (Config.bpu.setWidth 32 <<< 16 : Word32) = bitAt true 19 := by decide
  simp [State.regValue, hbpu, bitAt_getElem]

/-- `BUSSEL` field by field, its reserved bits 0. -/
theorem bussel_fields (s : State) :
    (s.regValue .bussel).extractLsb' 0 8 = s.busidx ∧ (s.regValue .bussel).extractLsb' 8 8 = s.devidx ∧
    (s.regValue .bussel).extractLsb' 16 2 = s.ckmode ∧ (s.regValue .bussel).extractLsb' 18 13 = 0 ∧
    (s.regValue .bussel).getLsbD 31 = s.nobus := by
  refine ⟨?_, ?_, ?_, ?_, ?_⟩
  iterate 4
    ext i hi
    interval_cases i <;> simp [bussel_getElem]
  simp [bussel_getElem]

/-- `WLEN` and `BPU` in their register, its reserved bits 0. -/
theorem wlen_fields (s : State) :
    (s.regValue .wlen).extractLsb' 0 16 = s.wlen ∧ (s.regValue .wlen).extractLsb' 16 8 = 8 ∧
    (s.regValue .wlen).extractLsb' 24 8 = 0 := by
  refine ⟨?_, ?_, ?_⟩
  all_goals
    ext i hi
    interval_cases i <;> simp [wlen_getElem]

/-- What a write leaves in `BUSSEL` before CONFIGURE: the bits of its fields. -/
theorem bussel_writeReg_same {s : State} (v : Word32) (hl : s.lifecycle = .unconfigured) :
    (writeReg .bussel v s).regValue .bussel = v &&& 0x8003FFFF#32 := by
  ext k hk
  rw [bussel_getElem]
  simp only [writeReg, hl, if_true]
  interval_cases k <;> simp

/-- What a write leaves in the register of `WLEN` before CONFIGURE: its 16 bits, beside the hard-wired `BPU`. -/
theorem wlen_writeReg_same {s : State} (v : Word32) (hl : s.lifecycle = .unconfigured) :
    (writeReg .wlen v s).regValue .wlen = (v &&& 0x0000FFFF#32) ||| 0x00080000#32 := by
  ext k hk
  rw [wlen_getElem]
  simp only [writeReg, hl, if_true]
  interval_cases k <;> simp

/-- What a write leaves in the register of `CW` before CONFIGURE: its 8 bits. -/
theorem cwidth_writeReg_same {s : State} (v : Word32) (hl : s.lifecycle = .unconfigured) :
    (writeReg .cwidth v s).regValue .cwidth = v &&& 0x000000FF#32 := by
  ext k hk
  simp only [writeReg, hl, if_true, State.regValue]
  interval_cases k <;> simp

/-! ### What a register write changes -/

/-- A write to a register leaves what every other register reads as it was. -/
theorem regValue_writeReg_of_ne {r q : RegName} (v : Word32) (s : State) (hne : q ≠ r) :
    (writeReg r v s).regValue q = s.regValue q := by
  cases r with
  | word j =>
    cases q with
    | word k => exact limb_setLimb_of_ne _ _ v fun h => hne (by rw [Fin.ext h])
    | _ => simp only [writeReg, State.regValue, State.status, State.busy]
  | standin j =>
    cases q with
    | standin k => exact bufferLimb_setBufferLimb_of_ne _ v fun h => hne (by rw [Fin.ext h])
    | _ => simp only [writeReg, State.regValue, State.status, State.busy]
  | cpoly j =>
    dsimp only [writeReg]
    split
    · cases q with
      | cpoly k => exact limb_setLimb_of_ne _ _ v fun h => hne (by rw [Fin.ext h])
      | _ => simp only [State.regValue, State.status, State.busy]
    · rfl
  | cinit j =>
    dsimp only [writeReg]
    split
    · cases q with
      | cinit k => exact limb_setLimb_of_ne _ _ v fun h => hne (by rw [Fin.ext h])
      | _ => simp only [State.regValue, State.status, State.busy]
    · rfl
  | bussel | ckrate | wlen | cwidth =>
    dsimp only [writeReg]
    split
    · cases q <;> simp only [State.regValue, State.status, State.busy, ne_eq, not_true_eq_false] at hne ⊢
    · rfl
  | _ => rfl

/-- A write at an offset leaves what every other offset reads as it was. -/
theorem valueAt_writeAt_of_ne {addr other : Nat} (v : Word32) (s : State) (hne : other ≠ addr) :
    (writeAt addr v s).valueAt other = s.valueAt other := by
  rcases regAt_cases addr with ⟨r, rfl⟩ | hnone
  · rcases regAt_cases other with ⟨q, rfl⟩ | hnone
    · rw [writeAt_offset, valueAt_offset, valueAt_offset, regValue_writeReg_of_ne v s (by rintro rfl; exact hne rfl)]
    · rw [valueAt_reserved _ hnone, valueAt_reserved _ hnone]
  · rw [writeAt_reserved v s hnone]

/-- What the offset of a register reads after a write to it is what the register then holds. -/
theorem valueAt_writeAt_offset (r : RegName) (v : Word32) (s : State) :
    (writeAt r.offset v s).valueAt r.offset = (writeReg r v s).regValue r := by
  rw [writeAt_offset, valueAt_offset]

/-- A write outside the configuration registers, `WORD` and `STANDIN` is ignored. -/
theorem writeAt_readOnly {addr : Nat} (v : Word32) (s : State)
    (h : 0x04 ≤ addr ∧ addr ≤ 0x0C ∨ 0x30 ≤ addr ∧ addr ≤ 0x4C ∨ 0x60 ≤ addr ∧ addr ≤ 0x9C ∨ 0xB0 ≤ addr) :
    writeAt addr v s = s := by
  rcases regAt_cases addr with ⟨r, rfl⟩ | hnone
  · rw [writeAt_offset]
    cases r with
    | bussel | ckrate | wlen | cwidth | cpoly j | cinit j | word j | standin j =>
      simp only [RegName.offset] at h
      omega
    | _ => rfl
  · exact writeAt_reserved v s hnone

/-- Before CONFIGURE a limb of `CPOLY` and of `CINIT` takes what the width of the register holds of the value. -/
theorem crcParameter_writeReg_same {s : State} (v : Word32) (j : Fin 2) (hl : s.lifecycle = .unconfigured) :
    (writeReg (.cpoly j) v s).regValue (.cpoly j) = BitVec.ofNat 32 (v.toNat % 2 ^ (s.sizes.cwMax - 32 * j.val)) ∧
    (writeReg (.cinit j) v s).regValue (.cinit j) = BitVec.ofNat 32 (v.toNat % 2 ^ (s.sizes.cwMax - 32 * j.val)) := by
  simp [writeReg, hl, State.regValue, limb_setLimb_same]

/-- At the reference sizes `WORD` and `STANDIN` read back whole (20_memory.md R65). -/
theorem valueAt_writeAt_reference {s : State} {addr : Nat} (v : Word32) (hn : s.sizes.nbMax = 8)
    (hc : s.sizes.cwMax = 64) (hs : s.standin.length = 16)
    (h : 0x50 ≤ addr ∧ addr ≤ 0x5C ∨ 0xA0 ≤ addr ∧ addr ≤ 0xAC) (ha : addr % 4 = 0) :
    (writeAt addr v s).valueAt addr = v := by
  have hnf : s.sizes.nfMax = 16 := by simp [Sizes.nfMax, Sizes.cbMax, hn, hc]
  rcases h with ⟨hlo, hhi⟩ | ⟨hlo, hhi⟩
  · obtain ⟨j, rfl⟩ := exists_limb_offset 4 hlo (by omega) ha (by decide)
    exact (valueAt_writeAt_offset (.word j) v s).trans (limb_setLimb_whole _ _ _ v (by omega))
  · obtain ⟨j, rfl⟩ := exists_limb_offset 4 hlo (by omega) ha (by decide)
    exact (valueAt_writeAt_offset (.standin j) v s).trans (bufferLimb_setBufferLimb_whole v (by omega))

/-- At the reference sizes `CPOLY` and `CINIT` read back whole before CONFIGURE. -/
theorem valueAt_writeAt_crcParameter {s : State} {addr : Nat} (v : Word32) (hc : s.sizes.cwMax = 64)
    (hlo : 0x20 ≤ addr) (hhi : addr ≤ 0x2C) (ha : addr % 4 = 0) (hl : s.lifecycle = .unconfigured) :
    (writeAt addr v s).valueAt addr = v := by
  rcases Nat.lt_or_ge addr 0x28 with hlt | hge
  · obtain ⟨j, rfl⟩ := exists_limb_offset 2 hlo hlt ha (by decide)
    rw [show 0x20 + 4 * j.val = (RegName.cpoly j).offset from rfl, valueAt_writeAt_offset]
    simpa [writeReg, hl, State.regValue] using limb_setLimb_whole s.sizes.cwMax s.cpoly j v (by omega)
  · obtain ⟨j, rfl⟩ := exists_limb_offset 2 hge (by omega) ha (by decide)
    rw [show 0x28 + 4 * j.val = (RegName.cinit j).offset from rfl, valueAt_writeAt_offset]
    simpa [writeReg, hl, State.regValue] using limb_setLimb_whole s.sizes.cwMax s.cinit j v (by omega)

/-! ### The host's accesses as turns -/

/-- The accesses that are defined (20_memory.md R66). -/
theorem accessDefined_iff {addr bytes : Nat} :
    accessDefined addr bytes = true ↔ bytes = 4 ∧ addr % 4 = 0 ∧ addr < 0x100 := by
  simp [accessDefined, and_assoc]

/-- A turn of the host that reads is the read. -/
theorem step_hostRead {s : State} {addr bytes : Nat} {rest : List Turn} (hr : s.rst = false)
    (ha : s.agenda = .hostRead addr bytes :: rest) : step s = memRead addr bytes { s with agenda := rest } := by
  simp [step, takeTurn, turnRunning, ha, hr]

/-- A turn of the host that writes is the write. -/
theorem step_hostWrite {s : State} {addr bytes : Nat} {v : Word32} {rest : List Turn} (hr : s.rst = false)
    (ha : s.agenda = .hostWrite addr bytes v :: rest) : step s = memWrite addr bytes v { s with agenda := rest } := by
  simp [step, takeTurn, turnRunning, ha, hr]

/-- A defined read has an answer: the current value while idle, and of `CMD` and `STATUS` always. -/
theorem memRead_defined {addr bytes : Nat} (s : State) (hd : accessDefined addr bytes = true) :
    ∃ value draws, memRead addr bytes s = .next { s with readData := value, draws := draws } ∧
      (s.phase = .idle ∨ addr = 0x00 ∨ addr = 0x04 → value = s.valueAt addr ∧ draws = s.draws) := by
  unfold memRead State.busy
  rw [if_pos hd]
  split
  · rename_i hbusy
    simp only [Bool.and_eq_true, bne_iff_ne] at hbusy
    exact ⟨_, _, rfl, by tauto⟩
  · exact ⟨_, _, rfl, fun _ => ⟨rfl, rfl⟩⟩

/-- A defined write in an idle block at an offset but that of `CMD` is a register write. -/
theorem memWrite_register {addr bytes : Nat} {s : State} (v : Word32) (hd : accessDefined addr bytes = true)
    (hp : s.phase = .idle) (hne : addr ≠ 0x00) : memWrite addr bytes v s = .next (writeAt addr v s) := by
  simp [memWrite, State.busy, hd, hp, hne]

/-! ### What the host reads and writes -/

/-- Settles O54: an access that is not defined is refused, a read or a write. -/
theorem otherAccessesAreRefused : Obligations.OtherAccessesAreRefused := by
  unfold Obligations.OtherAccessesAreRefused
  intro s addr bytes v rest hr hbad
  have hd : ¬accessDefined addr bytes = true := by
    rw [accessDefined_iff]
    omega
  refine ⟨fun ha => ?read, fun ha => ?write⟩
  case read => rw [step_hostRead hr ha, memRead, if_neg hd]
  case write => rw [step_hostWrite hr ha, memWrite, if_neg hd]

/-- Settles O51: register by register through the offsets, and by what a defined read can change. -/
theorem readsChangeNothing : Obligations.ReadsChangeNothing := by
  unfold Obligations.ReadsChangeNothing
  refine ⟨fun s => ?values, fun s addr rest hr ha halign hlt => ?turn⟩
  case values =>
    have hcw : (s.valueAt 0x1C).toNat = s.cw.toNat :=
      (congrArg BitVec.toNat (valueAt_offset s .cwidth)).trans (BitVec.toNat_setWidth_of_le (by decide))
    exact ⟨valueAt_offset s .cmd, valueAt_offset s .status, valueAt_offset s .txlen, valueAt_offset s .rxlen,
      bussel_fields s, valueAt_offset s .ckrate, wlen_fields s, hcw,
      fun j => ⟨valueAt_offset s (.cpoly j), valueAt_offset s (.cinit j), valueAt_offset s (.creg j),
        valueAt_offset s (.crcrx j), valueAt_offset s (.crccalc j), valueAt_offset s (.payload j)⟩,
      fun j => ⟨valueAt_offset s (.word j), valueAt_offset s (.full j)⟩,
      fun i => ⟨valueAt_lane .txf (fun _ => rfl) (fun _ => rfl) i, valueAt_lane .rxf (fun _ => rfl) (fun _ => rfl) i,
        valueAt_lane .standin (fun _ => rfl) (fun _ => rfl) i⟩⟩
  case turn =>
    obtain ⟨value, draws, hread, hvalue⟩ :=
      memRead_defined { s with agenda := rest } (accessDefined_iff.mpr ⟨rfl, halign, hlt⟩)
    have hreserved : s.phase = .idle → 0x70 ≤ addr ∧ addr ≤ 0x7C ∨ 0xB0 ≤ addr → value = 0 := fun hp h =>
      (hvalue (.inl hp)).1.trans (valueAt_reserved _ (regAt_eq_none h))
    refine ⟨_, (step_hostRead hr ha).trans hread, rfl, rfl, rfl, rfl, rfl, ?cmd, ?status, fun hp => hvalue (.inl hp),
      fun hp hlo hhi => hreserved hp (.inl ⟨hlo, hhi⟩), fun hp hlo => hreserved hp (.inr hlo)⟩
    case cmd =>
      rintro rfl
      exact (hvalue (.inr (.inl rfl))).1
    case status =>
      rintro rfl
      exact (hvalue (.inr (.inr rfl))).1

/-- Settles O52: register by register through the offsets, each limb, byte lane and field as its own law says. -/
theorem writesReadBack : Obligations.WritesReadBack := by
  unfold Obligations.WritesReadBack
  refine ⟨?turn, fun s v addr => writeAt_readOnly v s, fun s v addr other _ _ => valueAt_writeAt_of_ne v s,
    fun s v j => ⟨?word, fun k => ?standin⟩, fun s v j hl => ⟨?cpoly, ?cinit⟩,
    fun s v hn hc hs => ⟨fun addr h ha => valueAt_writeAt_reference v hn hc hs h ha,
      fun addr hlo hhi ha hl => valueAt_writeAt_crcParameter v hc hlo hhi ha hl⟩,
    fun s v hl => ⟨?bussel, ?ckrate, ?wlen, ?cwidth, fun addr other _ _ _ => valueAt_writeAt_of_ne v s⟩⟩
  case turn =>
    intro s addr v rest hr hp ha halign hlo hlt
    rw [step_hostWrite hr ha]
    exact memWrite_register v (accessDefined_iff.mpr ⟨rfl, halign, hlt⟩) hp (by omega)
  case word => exact (valueAt_writeAt_offset (.word j) v s).trans (limb_setLimb_same _ _ _ v)
  case standin =>
    have hread := congrArg (BitVec.extractLsb' (8 * k.val) 8) (valueAt_writeAt_offset (.standin j) v s)
    exact hread.trans (bufferLimb_setBufferLimb_byte _ _ v k)
  case cpoly => exact (valueAt_writeAt_offset (.cpoly j) v s).trans (crcParameter_writeReg_same v j hl).1
  case cinit => exact (valueAt_writeAt_offset (.cinit j) v s).trans (crcParameter_writeReg_same v j hl).2
  case bussel => exact (valueAt_writeAt_offset .bussel v s).trans (bussel_writeReg_same v hl)
  case ckrate => exact (valueAt_writeAt_offset .ckrate v s).trans (by simp [writeReg, hl, State.regValue])
  case wlen => exact (valueAt_writeAt_offset .wlen v s).trans (wlen_writeReg_same v hl)
  case cwidth => exact (valueAt_writeAt_offset .cwidth v s).trans (cwidth_writeReg_same v hl)

end Sys2Proof.Machine
end

section
/-! PROOFS. The command words (30_encoding.md R80 to R84): the fields of a word, the row a word matches, and the decoder
and the encoder as inverses of each other on the well-formed words. -/

namespace Sys2Proof

/-! ### A word is its six fields -/

/-- `OP`, `C`, `V`, `DATA` and the reserved bits `[7:6]` and `[31:16]` make up the whole word (R80). -/
theorem eq_of_fields {x y : Word32} (hop : x.extractLsb' 0 4 = y.extractLsb' 0 4) (hc : flagC x = flagC y)
    (hv : flagV x = flagV y) (hlow : x.extractLsb' 6 2 = y.extractLsb' 6 2) (hdata : dataField x = dataField y)
    (hhigh : x.extractLsb' 16 16 = y.extractLsb' 16 16) : x = y := by
  have bitOf {lo n : Nat} (h : x.extractLsb' lo n = y.extractLsb' lo n) {k : Nat} (hlo : lo ≤ k) (hhi : k < lo + n) :
      x.getLsbD k = y.getLsbD k := by
    simpa [show k - lo < n by omega, show lo + (k - lo) = k by omega] using congrArg (BitVec.getLsbD · (k - lo)) h
  apply BitVec.eq_of_getLsbD_eq
  intro k hk
  obtain h | rfl | rfl | h | h | h :
      k < 4 ∨ k = 4 ∨ k = 5 ∨ (6 ≤ k ∧ k < 8) ∨ (8 ≤ k ∧ k < 16) ∨ 16 ≤ k := by omega
  · exact bitOf hop (Nat.zero_le k) (by omega)
  · exact hc
  · exact hv
  · exact bitOf hlow h.1 h.2
  · exact bitOf hdata h.1 h.2
  · exact bitOf hhigh h hk

/-- The flag `C` of a word, put back at its place, is the bit that the mask of ENCODE leaves free (R83). -/
theorem flagBits_flagC (w : Word32) : flagBits (flagC w) false = w &&& ~~~0xFFFFFFEF#32 := by
  rw [show ~~~0xFFFFFFEF#32 = BitVec.twoPow 32 4 by decide, BitVec.and_twoPow]
  exact BitVec.or_zero

/-- Both flags of a word, put back, are the bits that the mask of WRITE and READ leaves free. -/
theorem flagBits_flagC_flagV (w : Word32) : flagBits (flagC w) (flagV w) = w &&& ~~~0xFFFFFFCF#32 := by
  rw [show ~~~0xFFFFFFCF#32 = BitVec.twoPow 32 4 ||| BitVec.twoPow 32 5 by decide, BitVec.and_or_distrib_left,
    BitVec.and_twoPow, BitVec.and_twoPow]
  rfl

/-- The byte `DATA` of a word, put back, is the bits that the mask of CRCBYTE leaves free. -/
theorem dataField_at_place (w : Word32) : (dataField w).setWidth 32 <<< 8 = w &&& ~~~0xFFFF00FF#32 := by
  ext k hk
  interval_cases k <;> simp [dataField]

/-! ### The rows of the opcode map -/

/-- The word lies in the row of the instruction (R83). -/
abbrev Instr.Matches (i : Instr) (w : Word32) : Prop := w &&& rowMask i = rowMatch i

/-- The instruction of the same row whose free fields are those of the word. -/
def Instr.withFieldsOf (w : Word32) : Instr → Instr
  | .configure => .configure
  | .encode _ => .encode (flagC w)
  | .write _ _ => .write (flagC w) (flagV w)
  | .read _ _ => .read (flagC w) (flagV w)
  | .genCrc => .genCrc
  | .crcStart => .crcStart
  | .crcByte _ => .crcByte (dataField w)

/-- Everything the decoder can answer: the instruction of a row the word matches, its fields read from the word, or an
error, when the word matches no row. -/
theorem decode_cases (w : Word32) :
    (∃ i : Instr, decode w = .ok i ∧ i.Matches w ∧ i.withFieldsOf w = i) ∨
    (decode w = .error (illegalCause w) ∧ ∀ i : Instr, ¬ i.Matches w) := by
  unfold decode
  split_ifs with h1 h2 h3 h4 h5 h6 h7
  · exact .inl ⟨.configure, rfl, h1, rfl⟩
  · exact .inl ⟨.encode _, rfl, h2, rfl⟩
  · exact .inl ⟨.write _ _, rfl, h3, rfl⟩
  · exact .inl ⟨.read _ _, rfl, h4, rfl⟩
  · exact .inl ⟨.genCrc, rfl, h5, rfl⟩
  · exact .inl ⟨.crcStart, rfl, h6, rfl⟩
  · exact .inl ⟨.crcByte _, rfl, h7, rfl⟩
  · refine .inr ⟨rfl, fun i => ?_⟩
    cases i <;> assumption

/-- What the decoder read: a row the word matches, with the fields of the word. -/
theorem matches_of_decode {w : Word32} {i : Instr} (h : decode w = .ok i) : i.Matches w ∧ i.withFieldsOf w = i := by
  rcases decode_cases w with ⟨j, hj, hrow⟩ | ⟨he, -⟩
  · obtain rfl : j = i := Except.ok.inj (hj.symm.trans h)
    exact hrow
  · cases he.symm.trans h

/-- Every mask takes in `OP`, and every match value is the bare operation code. -/
theorem row_operation (i : Instr) : rowMask i &&& 0xF#32 = 0xF#32 ∧ rowMatch i &&& 0xF#32 = rowMatch i := by
  cases i <;> simp [rowMask, rowMatch]

/-- A word that matches a row has that row's operation code. -/
theorem Instr.Matches.operation {i : Instr} {w : Word32} (h : i.Matches w) : rowMatch i = w &&& 0xF#32 := by
  obtain ⟨hmask, hmatch⟩ := row_operation i
  rw [← hmatch, ← h, BitVec.and_assoc, hmask]

/-- Instructions of the same row differ only in the fields. -/
theorem withFieldsOf_eq_of_row {i j : Instr} (w : Word32) (h : rowMatch i = rowMatch j) :
    i.withFieldsOf w = j.withFieldsOf w := by
  cases i <;> cases j <;> simp [rowMatch] at h <;> rfl

/-- A word decodes to the instruction of the row it matches, with the fields of the word. -/
theorem decode_of_matches {w : Word32} {i : Instr} (h : i.Matches w) : decode w = .ok (i.withFieldsOf w) := by
  rcases decode_cases w with ⟨j, hj, hrow, hfields⟩ | ⟨-, hnone⟩
  · rw [hj, ← hfields, withFieldsOf_eq_of_row w (hrow.operation.trans h.operation.symm)]
  · exact absurd h (hnone i)

/-- Settles O18: all rows share the field `OP`, which tells them apart. -/
theorem opcodeMapSelectsOneRow : Obligations.OpcodeMapSelectsOneRow := by
  unfold Obligations.OpcodeMapSelectsOneRow
  refine ⟨fun w i h => (matches_of_decode h).1, ?selected, ?disjoint, ?encode, ?transaction, ?crcByte⟩
  case selected =>
    intro w i (h : i.Matches w)
    have hd := decode_of_matches h
    exact ⟨_, hd, (matches_of_decode hd).1.operation.trans h.operation.symm⟩
  case disjoint =>
    intro w i j (hi : i.Matches w) (hj : j.Matches w)
    exact hi.operation.trans hj.operation.symm
  case encode =>
    intro w c h
    exact (Instr.encode.inj (matches_of_decode h).2).symm
  case transaction =>
    rintro w c v (h | h)
    · obtain ⟨hc, hv⟩ := Instr.write.inj (matches_of_decode h).2
      exact ⟨hc.symm, hv.symm⟩
    · obtain ⟨hc, hv⟩ := Instr.read.inj (matches_of_decode h).2
      exact ⟨hc.symm, hv.symm⟩
  case crcByte =>
    intro w d h
    exact (Instr.crcByte.inj (matches_of_decode h).2).symm

/-! ### The word of an instruction -/

/-- The word of an instruction lies in its row and is well formed, all rows together. -/
theorem encode_rowMatch (i : Instr) : Laws.RowMatch.Statement i := by
  cases i with
  | configure => exact Laws.RowMatch.configure
  | encode c => exact Laws.RowMatch.encode c
  | write c v => exact Laws.RowMatch.write c v
  | read c v => exact Laws.RowMatch.read c v
  | genCrc => exact Laws.RowMatch.genCrc
  | crcStart => exact Laws.RowMatch.crcStart
  | crcByte d => exact Laws.RowMatch.crcByte d

/-- `DATA` of the word of a CRCBYTE. -/
theorem dataField_encode_crcByte (d : Byte) : dataField (encode (.crcByte d)) = d := by
  ext k hk
  interval_cases k <;> simp [dataField, encode]

/-- The fields of the word of an instruction are the instruction's. -/
theorem withFieldsOf_encode (i : Instr) : i.withFieldsOf (encode i) = i := by
  cases i with
  | configure => rfl
  | encode c => cases c <;> rfl
  | write c v => cases c <;> cases v <;> rfl
  | read c v => cases c <;> cases v <;> rfl
  | genCrc => rfl
  | crcStart => rfl
  | crcByte d => exact congrArg Instr.crcByte (dataField_encode_crcByte d)

/-- Settles O16: the word lies in the instruction's row, and the fields read from it are the instruction's. -/
theorem decodeOfEncode : Obligations.DecodeOfEncode := by
  intro i
  rw [decode_of_matches (encode_rowMatch i).1, withFieldsOf_encode]

/-- The word of the instruction in a row with the fields of `w`: the row's fixed bits, and the bits of `w` that the mask
leaves free. -/
theorem encode_withFieldsOf (i : Instr) (w : Word32) :
    encode (i.withFieldsOf w) = rowMatch i ||| (w &&& ~~~rowMask i) := by
  have noFreeBit (r : Word32) : r = r ||| (w &&& ~~~0xFFFFFFFF#32) := by simp
  cases i with
  | configure | genCrc | crcStart => exact noFreeBit _
  | encode => exact congrArg (0x00000002#32 ||| ·) (flagBits_flagC w)
  | write => exact congrArg (0x00000003#32 ||| ·) (flagBits_flagC_flagV w)
  | read => exact congrArg (0x00000004#32 ||| ·) (flagBits_flagC_flagV w)
  | crcByte => exact congrArg (0x00000007#32 ||| ·) (dataField_at_place w)

/-- A word is the word of the instruction read from it: the mask and the free fields take in every bit. -/
theorem encode_of_decode {w : Word32} {i : Instr} (h : decode w = .ok i) : encode i = w := by
  obtain ⟨hrow, hfields⟩ := matches_of_decode h
  calc encode i = rowMatch i ||| (w &&& ~~~rowMask i) := by rw [← encode_withFieldsOf, hfields]
    _ = (w &&& rowMask i) ||| (w &&& ~~~rowMask i) := by rw [hrow]
    _ = w := by rw [← BitVec.and_or_distrib_left, BitVec.or_not_self, BitVec.and_allOnes]

/-! ### Well-formed words -/

/-- Each of the seven operation codes has its row (R83). -/
theorem exists_row_of_operationKnown {w : Word32} (h : operationKnown w = true) :
    ∃ i : Instr, w.extractLsb' 0 4 = (rowMatch i).extractLsb' 0 4 := by
  have rows : ∀ op : BitVec 4, 1 ≤ op.toNat → op.toNat ≤ 7 →
      ∃ i ∈ [Instr.configure, .encode false, .write false false, .read false false, .genCrc, .crcStart, .crcByte 0],
        op = (rowMatch i).extractLsb' 0 4 := by decide
  simp only [operationKnown, Bool.and_eq_true, decide_eq_true_eq] at h
  obtain ⟨i, -, hi⟩ := rows _ h.1 h.2
  exact ⟨i, hi⟩

/-- A well-formed word matches the row of its operation code: each field the mask takes in is one that R82 wants 0. -/
theorem matches_of_wordWellFormed {w : Word32} {i : Instr} (hw : wordWellFormed w = true)
    (hop : w.extractLsb' 0 4 = (rowMatch i).extractLsb' 0 4) : i.Matches w := by
  simp only [wordWellFormed, reservedBitsZero, flagCAllowed, flagVAllowed, dataAllowed, hop, Bool.and_eq_true,
    beq_iff_eq] at hw
  obtain ⟨⟨⟨⟨⟨hlow, hhigh⟩, -⟩, hc⟩, hv⟩, hdata⟩ := hw
  apply eq_of_fields
  case hop => cases i <;> simp [BitVec.extractLsb'_and, hop, rowMask, rowMatch]
  case hlow => cases i <;> simp [BitVec.extractLsb'_and, hlow, rowMatch]
  case hhigh => cases i <;> simp [BitVec.extractLsb'_and, hhigh, rowMatch]
  case hc => cases i <;> simp_all [flagC, rowMask, rowMatch]
  case hv => cases i <;> simp_all [flagV, rowMask, rowMatch]
  case hdata => cases i <;> simp_all [dataField, BitVec.extractLsb'_and, rowMask, rowMatch]

/-- Settles O17: a well-formed word matches the row of its operation code; a word that decodes is the word of an
instruction, which is well formed. -/
theorem legalWordsAreTheWellFormed : Obligations.LegalWordsAreTheWellFormed := by
  refine ⟨fun w => ⟨?wellFormed, ?legal⟩, fun w i => encode_of_decode⟩
  case wellFormed =>
    rintro ⟨i, h⟩
    rw [← encode_of_decode h]
    exact (encode_rowMatch i).2
  case legal =>
    intro hw
    have hknown : operationKnown w = true := by simp_all [wordWellFormed]
    obtain ⟨i, hop⟩ := exists_row_of_operationKnown hknown
    exact ⟨_, decode_of_matches (matches_of_wordWellFormed hw hop)⟩

/-- Settles O19: each sample is the word of its command; the illegal ones are computed. -/
theorem sampleWordsDecode : Obligations.SampleWordsDecode :=
  ⟨decodeOfEncode .configure, decodeOfEncode (.encode true), decodeOfEncode (.write false true),
    decodeOfEncode (.read true false), decodeOfEncode .genCrc, decodeOfEncode .crcStart,
    decodeOfEncode (.crcByte 0x31), by decide, by decide⟩

end Sys2Proof
end

section
/-! PROOFS. What an accepted word does when it is illegal or its lifecycle does not allow it (30_encoding.md R84, R85;
60_exceptions.md R207, R208). -/

namespace Sys2Proof.Machine

/-- The decoder rejects a word that is not well formed. -/
theorem decode_of_not_wordWellFormed {w : Word32} (hw : wordWellFormed w = false) : ∃ e, decode w = .error e := by
  cases hd : decode w with
  | error e => exact ⟨e, rfl⟩
  | ok i => simp [(legalWordsAreTheWellFormed.1 w).mp ⟨i, hd⟩] at hw

/-- Settles O21: the write to `CMD` is the acceptance of a word that the decoder rejects. -/
theorem illegalWordRaises : Obligations.IllegalWordRaises := by
  intro s w rest hr hp ha hw
  obtain ⟨e, hd⟩ := decode_of_not_wordWellFormed hw
  rw [step_hostWrite_cmd hr ha hp, issue_of_illegal hd]
  simp [raise, accept, hp]

/-- In an idle block a command that the lifecycle does not allow raises BadState. -/
theorem exec_of_not_allowed {i : Instr} {s : State} (hp : s.phase = .idle) (ha : allowedIn i s.lifecycle = false) :
    exec i s = .next (raise .badState s) := by
  obtain ⟨t, ht⟩ := exec_total_idle i s hp
  rcases exec_next_cases i s t ht with ⟨-, -, rfl⟩ | ⟨-, ha', -⟩ | ⟨hp', -⟩ | ⟨hp', -⟩ | ⟨hp', -⟩ | ⟨hp', -⟩
  · exact ht
  · cases ha.symm.trans ha'
  all_goals cases hp.symm.trans hp'

/-- Settles O22: by the table of R85, and BadState from the answers of `exec` in an idle block. -/
theorem lifecycleGate : Obligations.LifecycleGate := by
  refine ⟨fun l => by simp [allowedIn], fun i l => allowedIn_iff_ready, fun i s hp ha => ?_⟩
  rw [exec_of_not_allowed hp ha]
  simp [raise, hp]

end Sys2Proof.Machine
end

section
/-! PROOFS. The functions of the CRC Engine (40_crc_engine.md R100 to R106): the bit step bit by bit, the laws of
`compute_crc`, the table and its step. -/

namespace Sys2Proof.Machine

/-! ### The bit step and the byte step -/

/-- Bit `k` of the next register: the bit below it, with the polynomial's bit added when the bit leaving the top differs
from the input bit (R100). -/
theorem crcBit_testBit {W P r : Nat} (b : Bool) (k : Nat) (hP : P < 2 ^ W) (hr : r < 2 ^ W) :
    (crcBit W P r b.toNat).testBit k =
      (decide (k < W) && ((decide (0 < k) && r.testBit (k - 1)) ^^ ((r.testBit (W - 1) ^^ b) && P.testBit k))) := by
  have hpoly : (if r.testBit (W - 1) ^^ b then P else 0).testBit k
      = ((r.testBit (W - 1) ^^ b) && P.testBit k) := by
    cases r.testBit (W - 1) ^^ b <;> simp
  rw [crcBit_eq P b hr, Nat.testBit_xor, hpoly, Nat.testBit_mod_two_pow, Nat.testBit_shiftLeft]
  by_cases hk : k < W
  · simp [hk, Nat.succ_le_iff]
  · have hzero : P.testBit k = false :=
      Nat.testBit_lt_two_pow (lt_of_lt_of_le hP (Nat.pow_le_pow_right (by decide) (by omega)))
    simp [hk, hzero]

/-- At width 1 every bit of the register is shifted out (R104). -/
theorem crcBit_width_one (P r b : Nat) : crcBit 1 P r b = if r ^^^ b = 1 then P else 0 := by
  have hsh : (r <<< 1) % 2 ^ 1 = 0 := by rw [Nat.shiftLeft_eq, Nat.mul_mod_left]
  simp only [crcBit, hsh, Nat.sub_self, Nat.shiftRight_zero, Nat.zero_xor]

/-- Settles O1: bit by bit for an input bit of either value, and at width 1 nothing of the register is left. -/
theorem crcBitPolynomialStep : Obligations.CrcBitPolynomialStep := by
  refine ⟨fun W P r b _ hP hr hb => ⟨crcBit_lt b hP, fun k => ?_⟩, fun P r b _ _ _ => crcBit_width_one P r b⟩
  obtain rfl | rfl : b = 0 ∨ b = 1 := by omega
  · exact crcBit_testBit false k hP hr
  · exact crcBit_testBit true k hP hr

/-- Settles O2: the byte step is the fold of the bit step over the positions 7 down to 0, written out. -/
theorem crcByteTakesBitSevenFirst : Obligations.CrcByteTakesBitSevenFirst :=
  fun _ _ _ _ => rfl

/-! ### The laws of `compute_crc` -/

/-- A zero byte leaves a zero register: by linearity its value is added to itself (R103 (e)). -/
theorem crcByte_zero {W P : Nat} (hP : P < 2 ^ W) : crcByte W P 0 0 = 0 := by
  simpa using crcByte_xor 0 0 hP (Nat.two_pow_pos W) (Nat.two_pow_pos W)

/-- The byte step is the sum of what it does to the register and what it does with the byte (R103 (e)). -/
theorem crcByte_eq_register_xor_byte {W P r : Nat} (d : Byte) (hP : P < 2 ^ W) (hr : r < 2 ^ W) :
    crcByte W P r d = crcByte W P r 0 ^^^ crcByte W P 0 d := by
  simpa using crcByte_xor 0 d hP hr (Nat.two_pow_pos W)

/-- The computation over a concatenation goes on from the register after the first part (R103 (d)). -/
theorem computeCrc_append (a b : Frame) (W P I : Nat) :
    computeCrc (a ++ b) W P I = computeCrc b W P (computeCrc a W P I) :=
  List.foldl_append

/-- The first byte of the data is taken first. -/
theorem computeCrc_cons (d : Byte) (f : Frame) (W P I : Nat) :
    computeCrc (d :: f) W P I = computeCrc f W P (crcByte W P I d) := rfl

/-- From a zero register a leading zero byte does not count (R103 (f)). -/
theorem computeCrc_zero_cons {W P : Nat} (f : Frame) (hP : P < 2 ^ W) :
    computeCrc (0 :: f) W P 0 = computeCrc f W P 0 := by
  rw [computeCrc_cons, crcByte_zero hP]

/-- One more byte than a value needs is a leading zero byte (41_word_codec.md R130). -/
theorem be_succ_of_fits {v m : Nat} (h : v < 2 ^ (8 * m)) : be v (m + 1) = 0 :: be v m := by
  rw [be, Nat.shiftRight_eq_zero v (8 * m) h]
  rfl

/-- From a zero register the CRC of a word does not depend on the word length (R103 (f)). -/
theorem computeCrc_be_of_le {W P v n m : Nat} (hP : P < 2 ^ W) (hv : v < 2 ^ (8 * n)) (hnm : n ≤ m) :
    computeCrc (be v m) W P 0 = computeCrc (be v n) W P 0 := by
  induction m, hnm using Nat.le_induction with
  | base => rfl
  | succ m hnm ih =>
    have hfits : v < 2 ^ (8 * m) := lt_of_lt_of_le hv (Nat.pow_le_pow_right (by decide) (by omega))
    rw [be_succ_of_fits hfits, computeCrc_zero_cons _ hP, ih]

/-- Settles O3: by linearity of the byte step; the polynomial 0x07 at width 8 takes the register 1 to 7 over a zero
byte. -/
theorem computeCrcProperties : Obligations.ComputeCrcProperties := by
  refine ⟨fun W P _ hP => ⟨?range, ?empty, ?composition, ?linearity, ?parts, crcByte_zero hP, ?leadingZero,
    ?wordLength⟩, 8, 0x07, 1, [], by decide⟩
  case range => exact fun f I hI => computeCrc_lt f hP hI
  case empty => exact fun I => rfl
  case composition => exact fun a b I => computeCrc_append a b W P I
  case linearity => exact fun r s d e hr hs => crcByte_xor d e hP hr hs
  case parts => exact fun r d hr => crcByte_eq_register_xor_byte d hP hr
  case leadingZero => exact fun f => computeCrc_zero_cons f hP
  case wordLength => exact fun v n m hv hnm => computeCrc_be_of_le hP hv hnm

/-! ### The table -/

/-- An entry of the built table is the register after its byte from a zero register (R105). -/
theorem buildTable_getElem {W P i : Nat} (h : i < 256) : (buildTable W P)[i] = crcByte W P 0 (BitVec.ofNat 8 i) :=
  Vector.getElem_ofFn h

/-- Settles O4: an entry is a byte step, which keeps the width. -/
theorem tableHoldsByteSteps : Obligations.TableHoldsByteSteps := by
  intro W P i _ hP hi
  refine ⟨buildTable_getElem hi, fun cwMax hW => ?_⟩
  have hentry : (buildTable W P)[i] < 2 ^ W := by
    rw [buildTable_getElem hi]
    exact crcByte_lt _ hP (Nat.two_pow_pos W)
  exact lt_of_lt_of_le hentry (Nat.pow_le_pow_right (by decide) hW)

/-- Settles O5: the two forms of R106, by width, and the equality over the entries of R105. -/
theorem tableStepEqualsByteStep : Obligations.TableStepEqualsByteStep := by
  refine ⟨?wide, ?narrow, fun W P r d hW hP hr => crcByteT_tableEntry d hW hP hr⟩
  case wide => exact fun T W r d h => if_pos h
  case narrow => exact fun T W r d h => if_neg (Nat.not_le.mpr h)

end Sys2Proof.Machine
end

section
/-! PROOFS. The commands that use only the CRC Engine, each run to its end (40_crc_engine.md R107 to R110), and the CRC
of data streamed byte by byte (R103 (d)). -/

namespace Sys2Proof.Machine

/-! ### The steps of the commands in READY -/

/-- A command that the lifecycle allows runs. -/
theorem whenAllowed_of_ready {i : Instr} {s : State} (run : State → State) (hi : i ≠ .configure)
    (hl : s.lifecycle = .ready) : whenAllowed i s run = run s :=
  if_pos ((allowedIn_iff_ready hi).mpr hl)

/-- In READY, CRCSTART ends at acceptance with `CINIT` in `CREG` (R108). -/
theorem exec_crcStart_ready {s : State} (hp : s.phase = .idle) (hl : s.lifecycle = .ready) :
    exec .crcStart s = .next (finish (storeCreg s.cinit s)) := by
  simp [exec, execCrcStart, startCrc, hp, whenAllowed_of_ready _ _ hl]

/-- In READY, CRCBYTE ends at acceptance with its byte taken by the engine (R109). -/
theorem exec_crcByte_ready {s : State} (d : Byte) (hp : s.phase = .idle) (hl : s.lifecycle = .ready) :
    exec (.crcByte d) s = .next (finish (storeCreg (s.engineByte s.creg d) s)) := by
  simp [exec, execCrcByte, takeByte, hp, whenAllowed_of_ready _ _ hl]

/-- In READY, GENCRC is accepted into its own step (R110). -/
theorem exec_genCrc_ready {s : State} (hp : s.phase = .idle) (hl : s.lifecycle = .ready) :
    exec .genCrc s = .next (enterEncode s) := by
  simp [exec, execGenCrc, hp, whenAllowed_of_ready _ _ hl]

/-- The step of GENCRC on a word that fits: the engine run over the word's bytes (R110). -/
theorem exec_genCrc_encode {s : State} (hp : s.phase = .encode) (hw : s.word < 2 ^ (8 * s.bc)) :
    exec .genCrc s = .next (finish (storeCreg (s.engineRun (be s.word s.bc)) s)) := by
  rcases genCrcPhase_cases s with ⟨hover, -⟩ | ⟨-, e⟩
  · omega
  · simp only [exec, execGenCrc, hp, e]

/-- A command runs only in READY (10_state.md R31). -/
theorem ready_of_busy {s : State} (h : s.Inv) (hp : s.phase ≠ .idle) : s.lifecycle = .ready := by
  obtain ⟨-, -, hflow⟩ := (inv_iff s).mp h
  simp only [State.flowOk, Bool.or_eq_true, Bool.and_eq_true, beq_iff_eq, hp, false_or] at hflow
  exact hflow.1

/-- In an idle block `CREG` written and the command ended is a change of `CREG` and `DONE` only. -/
theorem finish_storeCreg_of_idle {s : State} (r : Nat) (hp : s.phase = .idle) :
    finish (storeCreg r s) = { s with creg := r, done := true } := by
  simp [finish, storeCreg, hp]

/-- In READY the engine takes a byte into `CREG` by the byte step of the locked configuration, which keeps the width. -/
theorem engineByte_creg {s : State} (d : Byte) (h : s.Inv) (hl : s.lifecycle = .ready) :
    s.engineByte s.creg d = crcByte s.cw.toNat s.cpoly s.creg d ∧ s.engineByte s.creg d < 2 ^ s.cw.toNat := by
  obtain ⟨-, -, -, hcreg, -⟩ := id h
  have hr := hcreg.1 hl
  exact ⟨(blockEngineComputesCrc s h hl).1 _ d hr, engineByte_lt d ((inv_iff s).mp h).1 hl hr⟩

/-- Settles O26: by the step of CRCSTART in READY. -/
theorem crcStartCompletes : Obligations.CrcStartCompletes := by
  intro s hp hl
  rw [exec_crcStart_ready hp hl, finish_storeCreg_of_idle _ hp]

/-- Settles O27: the engine of either form takes the byte by the byte step. -/
theorem crcByteCompletes : Obligations.CrcByteCompletes := by
  intro s d hinv hp hl
  obtain ⟨hbyte, hlt⟩ := engineByte_creg d hinv hl
  rw [← hbyte]
  exact ⟨hlt, by rw [exec_crcByte_ready d hp hl, finish_storeCreg_of_idle _ hp]⟩

/-- Settles O28: a running command is in READY, where the engine run over the word's bytes is `compute_crc` of them. -/
theorem genCrcCompletes : Obligations.GenCrcCompletes := by
  refine ⟨fun s hp hl => exec_genCrc_ready hp hl, fun s hinv hp hw => ?_⟩
  have hl : s.lifecycle = .ready := ready_of_busy hinv (by simp [hp])
  rw [exec_genCrc_encode hp hw, (blockEngineComputesCrc s hinv hl).2]
  rfl

/-! ### The CRC of streamed data -/

/-- The block after the word `w` of an engine command has been accepted in `s` and has ended with `r` in `CREG`. -/
def afterEngineCommand (s : State) (w : Word32) (r : Nat) : State :=
  finish (storeCreg r (accept w s))

@[simp] theorem afterEngineCommand_creg (s : State) (w : Word32) (r : Nat) :
    (afterEngineCommand s w r).creg = r := rfl

/-- No engine command touches the engine. -/
@[simp] theorem afterEngineCommand_engineByte (s : State) (w : Word32) (r : Nat) :
    (afterEngineCommand s w r).engineByte = s.engineByte := rfl

/-- The next engine command leaves nothing of the one before. -/
@[simp] theorem afterEngineCommand_twice (s : State) (w v : Word32) (r q : Nat) :
    afterEngineCommand (afterEngineCommand s w r) v q = afterEngineCommand s v q := by
  simp [afterEngineCommand, finish, storeCreg, accept]

/-- From an idle block an engine command changes `CMD`, the status fields and `CREG` only. -/
theorem afterEngineCommand_frame {s : State} (w : Word32) (r : Nat) (hp : s.phase = .idle) :
    afterEngineCommand s w r =
      { s with cmd := w, err := .none, done := true, crcmm := false, mhw := false, creg := r } := by
  simp [afterEngineCommand, finish, storeCreg, accept, hp]

/-- At level C a command that ends at acceptance is its acceptance. -/
theorem runWord_encode_of_idle {i : Instr} {s t : State} (he : exec i (accept (encode i) s) = .next t)
    (hp : t.phase = .idle) : runWord (encode i) s = .next t := by
  simp only [runWord, decodeOfEncode i, runCommand, he, finishPhases_idle 4 i t hp]

/-- CRCSTART as one step of level C. -/
theorem runWord_crcStart {s : State} (hp : s.phase = .idle) (hl : s.lifecycle = .ready) :
    runWord (encode .crcStart) s = .next (afterEngineCommand s (encode .crcStart) s.cinit) :=
  runWord_encode_of_idle (exec_crcStart_ready (s := accept _ s) hp hl) rfl

/-- CRCBYTE as one step of level C. -/
theorem runWord_crcByte {s : State} (d : Byte) (hp : s.phase = .idle) (hl : s.lifecycle = .ready) :
    runWord (encode (.crcByte d)) s
      = .next (afterEngineCommand s (encode (.crcByte d)) (s.engineByte s.creg d)) :=
  runWord_encode_of_idle (exec_crcByte_ready (s := accept _ s) d hp hl) rfl

/-- A word that has a next state is followed by the words after it. -/
theorem runWords_cons_of_next {w : Word32} {s t : State} (ws : List Word32) (h : runWord w s = .next t) :
    runWords (w :: ws) s = runWords ws t := by
  simp only [runWords, h]

/-- CRCBYTE for each byte of some data runs the engine over the data from the current `CREG`. -/
theorem runWords_crcByte {s : State} (data : Frame) (w : Word32) (r : Nat) (hl : s.lifecycle = .ready) :
    ∃ v, runWords (data.map fun d => encode (.crcByte d)) (afterEngineCommand s w r)
      = .next (afterEngineCommand s v (data.foldl s.engineByte r)) := by
  induction data generalizing w r with
  | nil => exact ⟨w, rfl⟩
  | cons d data ih =>
    have hbyte := runWord_crcByte (s := afterEngineCommand s w r) d rfl hl
    rw [List.map_cons, runWords_cons_of_next _ hbyte, afterEngineCommand_twice,
      afterEngineCommand_engineByte, afterEngineCommand_creg]
    exact ih _ _

/-- Settles O35: CRCSTART loads `CINIT`, the bytes run the engine from there, and its run over data is `compute_crc`. -/
theorem streamedCrcIsComputeCrc : Obligations.StreamedCrcIsComputeCrc := by
  intro s data hinv hp hl
  obtain ⟨v, hbytes⟩ := runWords_crcByte data (encode .crcStart) s.cinit hl
  refine ⟨_, (runWords_cons_of_next _ (runWord_crcStart hp hl)).trans hbytes, ?creg, ?frame⟩
  case creg => exact (afterEngineCommand_creg s v _).trans ((blockEngineComputesCrc s hinv hl).2 data)
  case frame => exact afterEngineCommand_frame v _ hp

end Sys2Proof.Machine
end

section
/-! PROOFS. The functions of the Word Codec (41_word_codec.md R130 to R134): the laws of `BE` and `INT`, and what
`encode` builds and the check finds in it (42_transactions.md R154, R159). -/

namespace Sys2Proof.Machine

/-! ### `BE` and `INT` -/

/-- Byte `i` of `BE(v, n)` is byte `n - 1 - i` of `v`, counted from the least significant (R130). -/
theorem be_getElem? (v : Nat) {n i : Nat} (h : i < n) :
    (be v n)[i]? = some (BitVec.ofNat 8 (v >>> (8 * (n - 1 - i)))) := by
  induction n generalizing i with
  | zero => omega
  | succ n ih =>
    cases i with
    | zero => rfl
    | succ i =>
      rw [be, List.getElem?_cons_succ, ih (by omega), show n + 1 - 1 - (i + 1) = n - 1 - i by omega]

/-- The bytes in front of those that the value needs are 0 (R130). -/
theorem be_zero_padded {v m : Nat} (k : Nat) (h : v < 2 ^ (8 * m)) :
    be v (k + m) = List.replicate k 0 ++ be v m := by
  induction k with
  | zero => simp
  | succ k ih =>
    have hzero : v >>> (8 * (k + m)) = 0 :=
      Nat.shiftRight_eq_zero _ _ (h.trans_le (Nat.pow_le_pow_right (by decide) (by omega)))
    rw [Nat.add_right_comm, be, hzero, ih, List.replicate_succ, List.cons_append]
    rfl

/-- `BE(v, n)` depends only on the lowest `n` bytes of `v`. -/
theorem be_mod {m n : Nat} (v : Nat) (h : n ≤ m) : be (v % 2 ^ (8 * m)) n = be v n := by
  induction n with
  | zero => rfl
  | succ n ih =>
    have hbyte : BitVec.ofNat 8 ((v % 2 ^ (8 * m)) >>> (8 * n)) = BitVec.ofNat 8 (v >>> (8 * n)) := by
      apply BitVec.eq_of_getLsbD_eq
      intro i hi
      simp [BitVec.getLsbD_ofNat, Nat.testBit_mod_two_pow, show 8 * n + i < 8 * m by omega]
    rw [be, be, hbyte, ih (by omega)]

/-- A byte in front counts for the bytes behind it, 8 bits each. -/
theorem intOf_cons (b : Byte) (f : Frame) : intOf (b :: f) = b.toNat * 2 ^ (8 * f.length) + intOf f := by
  rw [intOf, pow_mul]
  rfl

/-- `INT` of `BE(v, n)` is what the `n` bytes hold of `v`. -/
theorem intOf_be (v n : Nat) : intOf (be v n) = v % 2 ^ (8 * n) := by
  induction n with
  | zero => simp [be, intOf, Nat.mod_one]
  | succ n ih =>
    rw [be, intOf_cons, be_length_eq, ih, BitVec.toNat_ofNat, Nat.shiftRight_eq_div_pow, Nat.mul_add, pow_add,
      Nat.mul_one, Nat.mod_mul, Nat.mul_comm (2 ^ (8 * n)), Nat.add_comm]

/-- A value that fits the bytes comes back (R132 (a)). -/
theorem intOf_be_of_lt {v n : Nat} (h : v < 2 ^ (8 * n)) : intOf (be v n) = v := by
  rw [intOf_be, Nat.mod_eq_of_lt h]

/-- `INT` takes frames one after the other as the bytes of one value (R132 (c)). -/
theorem intOf_append (f g : Frame) : intOf (f ++ g) = intOf f * 2 ^ (8 * g.length) + intOf g := by
  induction f with
  | nil => simp [intOf]
  | cons b f ih =>
    rw [List.cons_append, intOf_cons, intOf_cons, ih, List.length_append, Nat.mul_add 8, pow_add]
    ring

/-- A frame comes back from its value (R132 (b)): the first byte is the value above the other bytes, and they depend
only on the value below it. -/
theorem be_intOf (f : Frame) : be (intOf f) f.length = f := by
  induction f with
  | nil => rfl
  | cons b f ih =>
    have hhead : intOf (b :: f) >>> (8 * f.length) = b.toNat := by
      rw [intOf_cons, Nat.shiftRight_eq_div_pow, Nat.mul_comm, Nat.mul_add_div (Nat.two_pow_pos _),
        Nat.div_eq_of_lt (intOf_lt f), Nat.add_zero]
    have htail : intOf (b :: f) % 2 ^ (8 * f.length) = intOf f := by
      rw [intOf_cons, Nat.mul_add_mod_self_right, Nat.mod_eq_of_lt (intOf_lt f)]
    rw [List.length_cons, be, hhead, ← be_mod _ le_rfl, htail, ih, BitVec.ofNat_toNat, BitVec.setWidth_eq]

/-- `INT` is the positional sum of the bytes (R131). -/
theorem intOf_eq_sum (f : Frame) :
    intOf f = ∑ i : Fin f.length, (f[i]).toNat * 256 ^ (f.length - 1 - i.val) := by
  induction f with
  | nil => rfl
  | cons b f ih =>
    have hexp : ∀ i : Fin f.length, f.length - (i.val + 1) = f.length - 1 - i.val := fun i => by omega
    rw [intOf, ih]
    simp only [List.length_cons, Fin.sum_univ_succ, Fin.getElem_fin, Fin.val_zero, Fin.val_succ, List.getElem_cons_zero,
      List.getElem_cons_succ, Nat.sub_zero, Nat.add_sub_cancel, hexp]

/-- Settles O7: byte by byte, and by the padding of a value that needs fewer bytes. -/
theorem bigEndianBytes : Obligations.BigEndianBytes := by
  refine ⟨rfl, fun v n _ => ⟨be_length_eq v n, fun i hi => ?byte, fun m hm hv => ?padding⟩⟩
  case byte =>
    rw [be_getElem? v hi]
    exact congrArg some (BitVec.eq_of_toNat_eq (by simp))
  case padding =>
    rw [← be_zero_padded (n - m) hv, Nat.sub_add_cancel hm]

/-- Settles O8: the positional sum, and its bound. -/
theorem bigEndianValue : Obligations.BigEndianValue :=
  ⟨rfl, fun f => ⟨intOf_eq_sum f, intOf_lt f⟩⟩

/-- Settles O9: law by law. -/
theorem codecRoundTrip : Obligations.CodecRoundTrip :=
  ⟨fun _ _ => intOf_be_of_lt, be_intOf, intOf_append, be_length_eq⟩

/-! ### `encode` -/

/-- Overflow comes first, whatever the flag and the configuration (R133). -/
theorem encodeFrame_overflow {word bc : Nat} (c : Bool) (W P I : Nat) (h : 2 ^ (8 * bc) ≤ word) :
    encodeFrame word bc c W P I = none := by
  rcases encodeBy_cases (fun f => computeCrc f W P I) word bc c W with ⟨-, e⟩ | ⟨hlt, -⟩
  · exact e
  · omega

/-- A word that fits becomes its bytes and, with the flag, those of its CRC (R133). -/
theorem encodeFrame_fits {word bc : Nat} (c : Bool) (W P I : Nat) (h : word < 2 ^ (8 * bc)) :
    encodeFrame word bc c W P I =
      some (be word bc ++ if c then be (computeCrc (be word bc) W P I) (crcByteCount W) else []) := by
  rcases encodeBy_cases (fun f => computeCrc f W P I) word bc c W with ⟨hle, -⟩ | ⟨-, e⟩
  · omega
  · exact e

/-- A frame is built from a word that fits only. -/
theorem fits_of_encodeFrame {word bc W P I : Nat} {c : Bool} {F : Frame} (h : encodeFrame word bc c W P I = some F) :
    word < 2 ^ (8 * bc) := by
  by_contra hover
  rw [encodeFrame_overflow c W P I (by omega)] at h
  cases h

/-- A frame with its CRC is the word's bytes, then the CRC's. -/
theorem eq_of_encodeFrame_crc {word bc W P I : Nat} {F : Frame} (h : encodeFrame word bc true W P I = some F) :
    F = be word bc ++ be (computeCrc (be word bc) W P I) (crcByteCount W) := by
  rw [encodeFrame_fits true W P I (fits_of_encodeFrame h)] at h
  exact (Option.some.inj h).symm

/-- `W` bits fit `ceil(W / 8)` bytes (00_scope.md R10). -/
theorem two_pow_le_crcBytes (W : Nat) : 2 ^ W ≤ 2 ^ (8 * crcByteCount W) :=
  Nat.pow_le_pow_right (by decide) (by unfold crcByteCount; omega)

/-- The CRC bytes hold the CRC, so their pad bits are 0 (R133). -/
theorem intOf_crcBytes {W P I : Nat} (f : Frame) (hP : P < 2 ^ W) (hI : I < 2 ^ W) :
    intOf (be (computeCrc f W P I) (crcByteCount W)) = computeCrc f W P I :=
  intOf_be_of_lt ((computeCrc_lt f hP hI).trans_le (two_pow_le_crcBytes W))

/-- The value of a frame with its CRC: the word above the CRC bytes (R134 (d)). -/
theorem intOf_crcFrame {word bc W P I : Nat} {F : Frame} (hP : P < 2 ^ W) (hI : I < 2 ^ W)
    (h : encodeFrame word bc true W P I = some F) :
    intOf F = word * 2 ^ (8 * crcByteCount W) + computeCrc (be word bc) W P I := by
  rw [eq_of_encodeFrame_crc h, intOf_append, intOf_be_of_lt (fits_of_encodeFrame h), intOf_crcBytes _ hP hI,
    be_length_eq]

/-- Settles O10: the two answers of `encode`, and the CRC bytes as a number. -/
theorem encodeFrameRule : Obligations.EncodeFrameRule := by
  intro word bc W P I _ _ hP hI
  refine ⟨fun c hover => encodeFrame_overflow c W P I hover, fun hfits => ⟨?plain,
    encodeFrame_fits true W P I hfits, be_length_eq _ _, be_length_eq _ _, ?padBits⟩⟩
  case plain => simpa using encodeFrame_fits false W P I hfits
  case padBits => exact (intOf_crcBytes (be word bc) hP hI).trans_lt (computeCrc_lt _ hP hI)

/-- Settles O11: the frame is the word's bytes, which are its first `bc`, and the CRC's. -/
theorem encodeFrameProperties : Obligations.EncodeFrameProperties := by
  intro word bc W P I _ _ hP hI
  refine ⟨fun hover c => encodeFrame_overflow c W P I hover, fun F h => ?_⟩
  have hF := eq_of_encodeFrame_crc h
  have htake : F.take bc = be word bc := by rw [hF, List.take_left' (be_length_eq word bc)]
  have hdrop : F.drop bc = be (computeCrc (be word bc) W P I) (crcByteCount W) := by
    rw [hF, List.drop_left' (be_length_eq word bc)]
  refine ⟨?length, ?crc, ?plain, intOf_crcFrame hP hI h⟩
  case length => rw [hF, List.length_append, be_length_eq, be_length_eq, crcByteCount]
  case crc => rw [hdrop, htake, intOf_crcBytes _ hP hI]
  case plain => simpa [htake] using encodeFrame_fits false W P I (fits_of_encodeFrame h)

/-- What the check finds in a word above the bytes of a CRC of the width: both of them, and the CRC computed anew
(42_transactions.md R154). -/
theorem crcCheck_word_crc {word crc W : Nat} (bc P I : Nat) (hcrc : crc < 2 ^ W) :
    crcCheck (word * 2 ^ (8 * crcByteCount W) + crc) bc W P I =
      { crcrx := crc
        payload := word
        recomputed := computeCrc (be word bc) W P I
        mismatch := crc != computeCrc (be word bc) W P I } := by
  have hbits : 2 ^ W ∣ 2 ^ (8 * crcByteCount W) := pow_dvd_pow 2 (by unfold crcByteCount; omega)
  have hreceived : (word * 2 ^ (8 * crcByteCount W) + crc) % 2 ^ W = crc := by
    obtain ⟨k, hk⟩ := Dvd.dvd.mul_left hbits word
    rw [hk, Nat.mul_add_mod, Nat.mod_eq_of_lt hcrc]
  have hpayload : (word * 2 ^ (8 * crcByteCount W) + crc) >>> (8 * crcByteCount W) = word := by
    rw [Nat.shiftRight_eq_div_pow, Nat.mul_comm, Nat.mul_add_div (Nat.two_pow_pos _),
      Nat.div_eq_of_lt (hcrc.trans_le (two_pow_le_crcBytes W)), Nat.add_zero]
  simp only [crcCheck, crcCheckBy, hreceived, hpayload]

/-- Settles O14: the frame's value is the word above its CRC, where the check finds both. -/
theorem ownFrameChecks : Obligations.OwnFrameChecks := by
  intro word bc W P I F _ _ hP hI h
  rw [intOf_crcFrame hP hI h, crcCheck_word_crc bc P I (computeCrc_lt _ hP hI), bne_self_eq_false]

end Sys2Proof.Machine
end

section
/-! PROOFS. The command ENCODE, run to its end (41_word_codec.md R135; 42_transactions.md R150), and ENCODE and GENCRC
as one step of level C (00_scope.md R15). -/

namespace Sys2Proof.Machine

/-! ### The steps of ENCODE in READY -/

/-- In READY, ENCODE is accepted into its phase (R135). -/
theorem exec_encode_ready {s : State} (c : Bool) (hp : s.phase = .idle) (hl : s.lifecycle = .ready) :
    exec (.encode c) s = .next (enterEncode s) := by
  simp [exec, execEncode, hp, whenAllowed_of_ready _ _ hl]

/-- The phase of ENCODE on a word that fits: the outbound frame is stored and the command is done (R150). -/
theorem exec_encode_fits {s : State} (c : Bool) (hp : s.phase = .encode) (hw : s.word < 2 ^ (8 * s.bc)) :
    exec (.encode c) s = .next (finish (storeOutbound c (s.outFrame c) s)) := by
  rcases encodePhase_cases c finish s with ⟨hover, -⟩ | ⟨-, e⟩
  · omega
  · simp only [exec, execEncode, hp, e]
    rfl

/-- A word that does not fit ends ENCODE and GENCRC in their phase with OverflowError (60_exceptions.md R202). -/
theorem exec_encode_genCrc_overflow {i : Instr} {s : State} (hi : i = .genCrc ∨ ∃ c, i = .encode c)
    (hp : s.phase = .encode) (hw : 2 ^ (8 * s.bc) ≤ s.word) : exec i s = .next (raise .overflowError s) := by
  rcases hi with rfl | ⟨c, rfl⟩
  · rcases genCrcPhase_cases s with ⟨-, e⟩ | ⟨hfits, -⟩
    · simp only [exec, execGenCrc, hp, e]
    · omega
  · rcases encodePhase_cases c finish s with ⟨-, e⟩ | ⟨hfits, -⟩
    · simp only [exec, execEncode, hp, e]
    · omega

/-- In READY the outbound frame is the frame that `encode` builds of the word over the locked configuration (R133). -/
theorem encodeFrame_eq_outFrame {s : State} (c : Bool) (h : s.Inv) (hl : s.lifecycle = .ready)
    (hw : s.word < 2 ^ (8 * s.bc)) :
    encodeFrame s.word s.bc c s.cw.toNat s.cpoly s.cinit = some (s.outFrame c) := by
  rw [encodeFrame_fits c _ _ _ hw, State.outFrame, (blockEngineComputesCrc s h hl).2]
  rfl

/-- In READY the buffer `TXF` that the ENCODE phase loads begins with the outbound frame. -/
theorem bufferPrefix_outFrame {s : State} (c : Bool) (d : Nat) (h : s.Inv) (hl : s.lifecycle = .ready) :
    bufferPrefix (loadBuffer (s.outFrame c) d s.sizes.nfMax) (s.nf c) = s.outFrame c := by
  obtain ⟨-, -, hnf⟩ := sizes_of_ready ((inv_iff s).mp h).1 hl
  rw [← outFrame_length]
  exact bufferPrefix_loadBuffer _ _ _ ((outFrame_length c s).trans_le (hnf c))

/-- In READY the ENCODE phase loads `TXF`, sets `TXLEN` to the length of the frame, and with the flag leaves its CRC in
`CREG` (R150). -/
theorem storeOutbound_outFrame {s : State} (c : Bool) (h : s.Inv) (hl : s.lifecycle = .ready) :
    storeOutbound c (s.outFrame c) s =
      { s with
        txf := loadBuffer (s.outFrame c) s.draws s.sizes.nfMax
        txlen := s.nf c
        creg := if c then computeCrc (be s.word s.bc) s.cw.toNat s.cpoly s.cinit else s.creg
        draws := s.draws + s.sizes.nfMax } := by
  rw [storeOutbound, outFrame_length, (blockEngineComputesCrc s h hl).2]

/-- Settles O29: a running command is in READY, where the outbound frame is that of `encode` and fits `TXF`. -/
theorem encodeCompletes : Obligations.EncodeCompletes := by
  refine ⟨fun c s hp hl => exec_encode_ready c hp hl, fun c s hinv hp hw => ?_⟩
  have hl : s.lifecycle = .ready := ready_of_busy hinv (by simp [hp])
  refine ⟨loadBuffer (s.outFrame c) s.draws s.sizes.nfMax, loadBuffer_length _ _ _, ?frame, ?step⟩
  case frame => rw [bufferPrefix_outFrame c _ hinv hl, encodeFrame_eq_outFrame c hinv hl hw]
  case step =>
    rw [exec_encode_fits c hp hw, storeOutbound_outFrame c hinv hl]
    rfl

/-! ### ENCODE and GENCRC as one step -/

/-- At level C a command that is accepted into phase ENCODE and ends there is its acceptance and that phase's step. -/
theorem runWord_encode_of_enterEncode {i : Instr} {s t : State}
    (haccept : exec i (accept (encode i) s) = .next (enterEncode (accept (encode i) s)))
    (hphase : exec i (enterEncode (accept (encode i) s)) = .next t) (hp : t.phase = .idle) :
    runWord (encode i) s = .next t := by
  have hbusy : (enterEncode (accept (encode i) s)).phase ≠ .idle := by simp
  simp only [runWord, decodeOfEncode i, runCommand, haccept, finishPhases_step 3 i _ _ hbusy hphase,
    finishPhases_idle 3 i t hp]

/-- In READY, ENCODE and GENCRC are accepted into phase ENCODE. -/
theorem exec_encode_genCrc_ready {i : Instr} {s : State} (hi : i = .genCrc ∨ ∃ c, i = .encode c)
    (hp : s.phase = .idle) (hl : s.lifecycle = .ready) : exec i s = .next (enterEncode s) := by
  rcases hi with rfl | ⟨c, rfl⟩
  · exact exec_genCrc_ready hp hl
  · exact exec_encode_ready c hp hl

/-- ENCODE and GENCRC of a word that does not fit, as one step of level C. -/
theorem runWord_encode_genCrc_overflow {i : Instr} {s : State} (hi : i = .genCrc ∨ ∃ c, i = .encode c)
    (hp : s.phase = .idle) (hl : s.lifecycle = .ready) (hw : 2 ^ (8 * s.bc) ≤ s.word) :
    runWord (encode i) s = .next
      { s with cmd := encode i, err := .overflowError, done := false, crcmm := false, mhw := false } := by
  rw [runWord_encode_of_enterEncode (exec_encode_genCrc_ready hi (s := accept _ s) hp hl)
    (exec_encode_genCrc_overflow hi (s := enterEncode (accept _ s)) rfl hw) rfl]
  simp [raise, enterEncode, accept, hp]

/-- Acceptance does not change the length of the word. -/
@[simp] theorem enterEncode_accept_bc (w : Word32) (s : State) : (enterEncode (accept w s)).bc = s.bc := rfl

/-- An accepted command of a block that meets the invariant meets it too. -/
theorem inv_of_accepted {i : Instr} {s t : State} (h : s.Inv) (hp : s.phase = .idle)
    (he : exec i (accept (encode i) s) = .next t) : t.Inv :=
  issue_keeps_inv h hp ((issue_of_decode (decodeOfEncode i)).trans he)

/-- ENCODE of a word that fits, as one step of level C: the acceptance, and the phase's step as R150 says. -/
theorem runWord_encode_fits {s : State} (c : Bool) (hinv : s.Inv) (hp : s.phase = .idle) (hl : s.lifecycle = .ready)
    (hw : s.word < 2 ^ (8 * s.bc)) :
    ∃ t : State, runWord (encode (.encode c)) s = .next t ∧
      encodeFrame s.word s.bc c s.cw.toNat s.cpoly s.cinit = some t.txFrame ∧
      t.txlen = s.nf c ∧
      t = { s with
            cmd := encode (.encode c), err := .none, done := true, crcmm := false, mhw := false
            txf := t.txf
            txlen := t.txlen
            creg := if c then computeCrc (be s.word s.bc) s.cw.toNat s.cpoly s.cinit else s.creg
            draws := t.draws } := by
  have haccept := exec_encode_ready (s := accept (encode (.encode c)) s) c hp hl
  obtain ⟨buf, -, hframe, hstep⟩ := encodeCompletes.2 c _ (inv_of_accepted hinv hp haccept) rfl hw
  refine ⟨_, runWord_encode_of_enterEncode haccept hstep rfl, hframe, rfl, ?_⟩
  simp [hp]

/-- GENCRC of a word that fits, as one step of level C: the acceptance, and its own step as R110 says. -/
theorem runWord_genCrc_fits {s : State} (hinv : s.Inv) (hp : s.phase = .idle) (hl : s.lifecycle = .ready)
    (hw : s.word < 2 ^ (8 * s.bc)) :
    runWord (encode .genCrc) s = .next
      { s with
        cmd := encode .genCrc, err := .none, done := true, crcmm := false, mhw := false
        creg := computeCrc (be s.word s.bc) s.cw.toNat s.cpoly s.cinit } := by
  have haccept := exec_genCrc_ready (s := accept (encode .genCrc) s) hp hl
  rw [runWord_encode_of_enterEncode haccept (genCrcCompletes.2 _ (inv_of_accepted hinv hp haccept) rfl hw) rfl]
  simp [hp]

/-- Settles O32: by overflow and fit. -/
theorem encodeAsOneStep : Obligations.EncodeAsOneStep :=
  ⟨fun c _ hinv hp hl =>
      ⟨runWord_encode_genCrc_overflow (.inr ⟨c, rfl⟩) hp hl, runWord_encode_fits c hinv hp hl⟩,
    fun _ hinv hp hl => ⟨runWord_encode_genCrc_overflow (.inl rfl) hp hl, runWord_genCrc_fits hinv hp hl⟩⟩

end Sys2Proof.Machine
end

section
/-! PROOFS. The numeral parser of the host (41_word_codec.md R140): its digits, the numerals it takes, and their value
digit by digit. -/

namespace Sys2Proof.Machine

/-! ### Digits -/

/-- A run of digits: characters with consecutive codes and consecutive values. -/
def digitRun (first : Char) (value count : Nat) : List (Char × Nat) :=
  (List.range count).map fun i => (Char.ofNat (first.toNat + i), value + i)

/-- A character of a run, by its code: it lies in the run, and its value is as far from the first value as its code from
the first code. -/
theorem mem_digitRun_iff {first : Char} {value count : Nat} (hvalid : first.toNat + count ≤ 0xd800) (ch : Char)
    (k : Nat) :
    (ch, k) ∈ digitRun first value count ↔
      first.toNat ≤ ch.toNat ∧ ch.toNat < first.toNat + count ∧ k = ch.toNat - first.toNat + value := by
  have hcode : ∀ i < count, (Char.ofNat (first.toNat + i)).toNat = first.toNat + i := fun i hi =>
    (Char.toNat_ofNat _).trans (if_pos (.inl (by omega)))
  simp only [digitRun, List.mem_map, List.mem_range, Prod.mk.injEq]
  constructor
  · rintro ⟨i, hi, rfl, rfl⟩
    rw [hcode i hi]
    omega
  · rintro ⟨hlo, hhi, rfl⟩
    refine ⟨ch.toNat - first.toNat, by omega, ?_, by omega⟩
    rw [show first.toNat + (ch.toNat - first.toNat) = ch.toNat by omega, Char.ofNat_toNat]

/-- The decimal digits. -/
theorem decDigit_eq_some_iff (ch : Char) (k : Nat) : decDigit ch = some k ↔ (ch, k) ∈ digitRun '0' 0 10 := by
  rw [mem_digitRun_iff (by decide), decDigit, Option.ite_none_right_eq_some, Option.some.injEq, eq_comm (b := k)]
  simp only [Char.reduceToNat]
  omega

/-- The hexadecimal digits: the decimal ones, and six letters of either case. -/
theorem hexDigit_eq_some_iff (ch : Char) (k : Nat) :
    hexDigit ch = some k ↔
      decDigit ch = some k ∨ (ch, k) ∈ digitRun 'a' 10 6 ∨ (ch, k) ∈ digitRun 'A' 10 6 := by
  rw [mem_digitRun_iff (by decide), mem_digitRun_iff (by decide), hexDigit, decDigit]
  simp only [Char.reduceToNat]
  split_ifs <;> simp <;> omega

/-- Neither letter of a prefix is a decimal digit. -/
theorem decDigit_prefix {x : Char} (hx : x = 'x' ∨ x = 'X') : decDigit x = none := by
  rcases hx with rfl | rfl <;> rfl

/-! ### Numerals -/

/-- Digits have a value when each of them is a digit. -/
theorem digitsFrom_isSome (digit : Char → Option Nat) (base acc : Nat) (chars : List Char) :
    (digitsFrom digit base acc chars).isSome = true ↔ ∀ ch ∈ chars, (digit ch).isSome = true := by
  induction chars generalizing acc with
  | nil => simp [digitsFrom]
  | cons ch rest ih => cases h : digit ch <;> simp [digitsFrom, h, ih]

/-- A digit behind others counts once, and they count `base` times as much as before. -/
theorem digitsFrom_append {digit : Char → Option Nat} {base acc n k : Nat} {chars : List Char} {ch : Char}
    (hn : digitsFrom digit base acc chars = some n) (hk : digit ch = some k) :
    digitsFrom digit base acc (chars ++ [ch]) = some (n * base + k) := by
  induction chars generalizing acc with
  | nil =>
    cases hn
    simp [digitsFrom, hk]
  | cons d rest ih =>
    cases hd : digit d with
    | none => simp [digitsFrom, hd] at hn
    | some j =>
      simp only [digitsFrom, hd] at hn
      simpa only [List.cons_append, digitsFrom, hd] using ih hn

/-- A numeral is one or more digits. -/
theorem numeral_isSome (digit : Char → Option Nat) (base : Nat) (chars : List Char) :
    (numeral digit base chars).isSome = true ↔ chars ≠ [] ∧ ∀ ch ∈ chars, (digit ch).isSome = true := by
  cases chars with
  | nil => simp [numeral]
  | cons ch rest => simpa [numeral] using digitsFrom_isSome digit base 0 (ch :: rest)

/-- A numeral of one digit is the digit. -/
theorem numeral_singleton (digit : Char → Option Nat) (base : Nat) (ch : Char) :
    numeral digit base [ch] = digit ch := by
  cases h : digit ch <;> simp [numeral, digitsFrom, h]

/-- A numeral with a digit behind it: digit by digit, the value of the numeral in its base. -/
theorem numeral_append {digit : Char → Option Nat} {base n k : Nat} {chars : List Char} {ch : Char}
    (hn : numeral digit base chars = some n) (hk : digit ch = some k) :
    numeral digit base (chars ++ [ch]) = some (n * base + k) := by
  cases chars with
  | nil => cases hn
  | cons d rest => exact digitsFrom_append (chars := d :: rest) hn hk

/-- A leading zero keeps the value of a numeral. -/
theorem numeral_zero_cons {digit : Char → Option Nat} (base : Nat) {zero : Char} {chars : List Char}
    (hz : digit zero = some 0) (hne : chars ≠ []) :
    numeral digit base (zero :: chars) = numeral digit base chars := by
  cases chars with
  | nil => exact absurd rfl hne
  | cons d rest => simp [numeral, digitsFrom, hz]

/-! ### The parser -/

/-- After a prefix the parser takes a hexadecimal numeral. -/
theorem parseInput_hex {x : Char} (rest : List Char) (hx : x = 'x' ∨ x = 'X') :
    parseInput ('0' :: x :: rest) = numeral hexDigit 16 rest := by
  rcases hx with rfl | rfl <;> rfl

/-- Without a prefix it takes a decimal numeral. -/
theorem parseInput_decimal {raw : List Char}
    (h : ∀ x rest, x = 'x' ∨ x = 'X' → raw ≠ '0' :: x :: rest) : parseInput raw = numeral decDigit 10 raw := by
  unfold parseInput
  split
  · exact absurd rfl (h _ _ (.inl rfl))
  · exact absurd rfl (h _ _ (.inr rfl))
  · rfl

/-- Decimal digits have no prefix. -/
theorem parseInput_decDigits {raw : List Char} (h : ∀ ch ∈ raw, (decDigit ch).isSome = true) :
    parseInput raw = numeral decDigit 10 raw := by
  refine parseInput_decimal fun x rest hx e => ?_
  have hdigit := h x (by simp [e])
  simp [decDigit_prefix hx] at hdigit

/-- The parser takes decimal numerals, hexadecimal numerals after a prefix, and nothing else. -/
theorem parseInput_isSome (raw : List Char) :
    (parseInput raw).isSome = true ↔
      ((raw ≠ [] ∧ ∀ ch ∈ raw, (decDigit ch).isSome = true) ∨
        ∃ x rest, raw = '0' :: x :: rest ∧ (x = 'x' ∨ x = 'X') ∧ rest ≠ [] ∧
          ∀ ch ∈ rest, (hexDigit ch).isSome = true) := by
  constructor
  · intro h
    by_cases hprefix : ∃ x rest, (x = 'x' ∨ x = 'X') ∧ raw = '0' :: x :: rest
    · obtain ⟨x, rest, hx, rfl⟩ := hprefix
      rw [parseInput_hex rest hx, numeral_isSome] at h
      exact .inr ⟨x, rest, rfl, hx, h⟩
    · rw [parseInput_decimal fun x rest hx e => hprefix ⟨x, rest, hx, e⟩, numeral_isSome] at h
      exact .inl h
  · rintro (⟨hne, hdec⟩ | ⟨x, rest, rfl, hx, hhex⟩)
    · rw [parseInput_decDigits hdec, numeral_isSome]
      exact ⟨hne, hdec⟩
    · rwa [parseInput_hex rest hx, numeral_isSome]

/-- Settles O59: the tables are runs of digits, and the numerals are taken as they are built up. -/
theorem parserTakesNumeralsOnly : Obligations.ParserTakesNumeralsOnly := by
  refine ⟨decDigit_eq_some_iff, hexDigit_eq_some_iff, parseInput_isSome, fun ch => ?oneDigit,
    fun raw ch n k hdec hn hk => ?decimal, fun x ch hx => ?oneHexDigit, fun rest x ch n k hx hn hk => ?hexadecimal,
    fun raw hne hdec => ?leadingZero, rfl, rfl, rfl⟩
  case oneDigit => rw [parseInput_decimal (by simp), numeral_singleton]
  case decimal =>
    rw [parseInput_decDigits hdec] at hn
    rw [parseInput_decDigits, numeral_append hn hk]
    simpa [or_imp, forall_and, hk] using hdec
  case oneHexDigit => rw [parseInput_hex _ hx, numeral_singleton]
  case hexadecimal =>
    rw [parseInput_hex _ hx] at hn ⊢
    exact numeral_append hn hk
  case leadingZero =>
    rw [parseInput_decDigits hdec, parseInput_decDigits, numeral_zero_cons 10 rfl hne]
    simpa [decDigit] using hdec

end Sys2Proof.Machine
end

section
/-! PROOFS. The host presents its word (41_word_codec.md R140, R141; 43_system_and_host.md R186 to R189): the accesses
of a command line, and what the four writes of a word leave in `WORD` (20_memory.md R62). -/

namespace Sys2Proof.Machine

/-! ### The accesses of a command line -/

/-- An operand that is no numeral is a FormatError (R140). -/
theorem toolWord_formatError {raw : List Char} (z : Sizes) (h : parseInput raw = none) :
    toolWord z raw = .error .formatError := by
  simp [toolWord, h]

/-- A word that `WORD` cannot hold is an OverflowError (R141). -/
theorem toolWord_overflow {z : Sizes} {raw : List Char} {w : Nat} (h : parseInput raw = some w)
    (hw : 2 ^ (8 * z.nfMax) ≤ w) : toolWord z raw = .error .overflowError := by
  simp [toolWord, h, hw]

/-- A word that `WORD` holds is the operand (R141). -/
theorem toolWord_fits {z : Sizes} {raw : List Char} {w : Nat} (h : parseInput raw = some w)
    (hw : w < 2 ^ (8 * z.nfMax)) : toolWord z raw = .ok w := by
  simp [toolWord, h, hw]

/-- A bad operand is reported before any access. -/
theorem toolAccesses_error {z : Sizes} {raw : List Char} {e : ToolError} (cmd : Word32)
    (h : toolWord z raw = .error e) : toolAccesses z raw cmd = .error e := by
  simp [toolAccesses, h]

/-- The accesses that send a word: the word, the command word, and then the host waits. -/
def sendWord (w : Nat) (cmd : Word32) : List Turn := wordWrites w ++ [.hostWrite 0x00 4 cmd, .hostWait]

/-- A good operand is sent. -/
theorem toolAccesses_ok {z : Sizes} {raw : List Char} {w : Nat} (cmd : Word32) (h : toolWord z raw = .ok w) :
    toolAccesses z raw cmd = .ok (sendWord w cmd) := by
  simp [toolAccesses, sendWord, h]

/-- The flags of a command line as a number in the command word (30_encoding.md R80). -/
theorem or_flagBits_eq_ofNat {op : Nat} (crc verbose : Bool) (hop : op = 0x03 ∨ op = 0x04) :
    BitVec.ofNat 32 op ||| flagBits crc verbose
      = BitVec.ofNat 32 (op + ((if crc then 0x10 else 0) + if verbose then 0x20 else 0)) := by
  rcases hop with rfl | rfl <;> cases crc <;> cases verbose <;> rfl

/-- The benchmark refuses what its commands refuse. -/
theorem benchmarkSpi_error {z : Sizes} {raw : List Char} {e : ToolError} (n : Nat) (crc verbose : Bool)
    (h : toolWord z raw = .error e) : benchmarkSpi z n raw crc verbose = .error e := by
  simp [benchmarkSpi, spiWrite, spiRead, toolAccesses_error _ h]

/-- The benchmark is pairs of the accesses of a write and those of a read of the same word (R189). -/
theorem benchmarkSpi_ok {z : Sizes} {raw : List Char} {w : Nat} (n : Nat) (crc verbose : Bool)
    (h : toolWord z raw = .ok w) :
    benchmarkSpi z n raw crc verbose = .ok (List.replicate n
      (sendWord w (0x03#32 ||| flagBits crc verbose) ++ sendWord w (0x04#32 ||| flagBits crc verbose))).flatten := by
  simp only [benchmarkSpi, spiWrite, spiRead, toolAccesses_ok _ h]

/-! ### The writes of a word -/

/-- A register of `width` bits that holds `x` after limbs 0 to `n - 1` of `w` are written to it, in this order. -/
def writeLimbs (width w x : Nat) : Nat → Nat
  | 0 => x
  | n + 1 => setLimb width (writeLimbs width w x n) n (limb w n)

/-- A limb of a value of `width` bits has no bit that the register drops. -/
theorem limb_mod_width {width w : Nat} (j : Nat) (hw : w < 2 ^ width) :
    (limb w j).toNat % 2 ^ (width - 32 * j) = (limb w j).toNat := by
  have hrest : w >>> (32 * j) < 2 ^ (width - 32 * j) := by
    rw [Nat.shiftRight_eq_div_pow, Nat.div_lt_iff_lt_mul (Nat.two_pow_pos _), ← pow_add]
    exact hw.trans_le (Nat.pow_le_pow_right (by decide) (by omega))
  exact Nat.mod_eq_of_lt ((Nat.mod_le _ _).trans_lt hrest)

/-- The limbs written so far are those of the value. -/
theorem writeLimbs_mod {width w : Nat} (x n : Nat) (hw : w < 2 ^ width) :
    writeLimbs width w x n % 2 ^ (32 * n) = w % 2 ^ (32 * n) := by
  induction n with
  | zero => simp [Nat.mod_one]
  | succ n ih =>
    rw [mod_limbs_succ, mod_limbs_succ w, writeLimbs, setLimb_mod, ih, limb_setLimb_same, limb_mod_width n hw,
      BitVec.ofNat_toNat, BitVec.setWidth_eq]

/-- The register keeps its width. -/
theorem writeLimbs_lt {width x : Nat} (w n : Nat) (hx : x < 2 ^ width) : writeLimbs width w x n < 2 ^ width := by
  induction n with
  | zero => exact hx
  | succ n ih => exact setLimb_lt _ _ n _ ih

/-- A register that has no more than `n` limbs holds the value once they are written. -/
theorem writeLimbs_eq {width w x n : Nat} (hn : width ≤ 32 * n) (hx : x < 2 ^ width) (hw : w < 2 ^ width) :
    writeLimbs width w x n = w := by
  have hle : 2 ^ width ≤ 2 ^ (32 * n) := Nat.pow_le_pow_right (by decide) hn
  have hmod := writeLimbs_mod x n hw
  rwa [Nat.mod_eq_of_lt (hw.trans_le hle), Nat.mod_eq_of_lt ((writeLimbs_lt w n hx).trans_le hle)] at hmod

/-- The host's write of limb `j` of a word. -/
def limbWrite (w j : Nat) : Turn := .hostWrite (0x50 + 4 * j) 4 (limb w j)

/-- The host presents a word limb by limb, the lowest first. -/
theorem wordWrites_eq_map (w : Nat) : wordWrites w = (List.range' 0 4).map (limbWrite w) := rfl

/-- The write of the next limb of a word to an idle block that has taken the limbs below it. -/
theorem step_limbWrite {s : State} {w x j : Nat} {rest : List Turn} (hj : j < 4) (hr : s.rst = false)
    (hp : s.phase = .idle) (hs : s.word = writeLimbs (8 * s.sizes.nfMax) w x j)
    (ha : s.agenda = limbWrite w j :: rest) :
    step s = .next { s with agenda := rest, word := writeLimbs (8 * s.sizes.nfMax) w x (j + 1) } := by
  have hd : accessDefined (0x50 + 4 * j) 4 = true := by
    rw [accessDefined_iff]
    omega
  have hwrite := writeAt_offset (.word ⟨j, hj⟩) (limb w j) { s with agenda := rest }
  rw [RegName.offset] at hwrite
  rw [step_hostWrite hr ha, memWrite_register (s := { s with agenda := rest }) _ hd hp (by omega), hwrite, writeReg, hs,
    writeLimbs]

/-- The writes of `n` limbs from limb `j` on, one step each. -/
theorem run_limbWrites {w x : Nat} {rest : List Turn} (n : Nat) {s : State} {j : Nat} (hj : j + n ≤ 4)
    (hr : s.rst = false) (hp : s.phase = .idle) (hs : s.word = writeLimbs (8 * s.sizes.nfMax) w x j)
    (ha : s.agenda = (List.range' j n).map (limbWrite w) ++ rest) :
    Host.Core.run core n s
      = .next { s with agenda := rest, word := writeLimbs (8 * s.sizes.nfMax) w x (j + n) } := by
  induction n generalizing s j with
  | zero =>
    have hrest : s.agenda = rest := ha
    rw [Nat.add_zero, ← hs, ← hrest]
    rfl
  | succ n ih =>
    have hstep := step_limbWrite (by omega) hr hp hs ha
    rw [run_succ_of_step hstep, show j + (n + 1) = j + 1 + n by omega]
    exact ih (by omega) hr hp rfl rfl

/-- Settles O57: the operand by its three cases, the command words by their flags, the benchmark pair by pair, and the
writes limb by limb. -/
theorem hostPresentsItsWord : Obligations.HostPresentsItsWord := by
  refine ⟨fun z raw cmd => ⟨fun h => toolAccesses_error cmd (toolWord_formatError z h),
    fun w h hw => toolAccesses_error cmd (toolWord_overflow h hw),
    fun w h hw => toolAccesses_ok cmd (toolWord_fits h hw)⟩,
    fun z raw crc verbose => ?commands, fun s w rest hr hp hn hs hw ha => ?writes⟩
  case commands =>
    have h3 := or_flagBits_eq_ofNat crc verbose (.inl rfl)
    have h4 := or_flagBits_eq_ofNat crc verbose (.inr rfl)
    refine ⟨congrArg (toolAccesses z raw) h3, congrArg (toolAccesses z raw) h4, rfl,
      fun n e h => benchmarkSpi_error n crc verbose h,
      fun w h => ⟨benchmarkSpi_ok 0 crc verbose h, fun n accesses ha => ?_⟩⟩
    rw [benchmarkSpi_ok n crc verbose h] at ha
    cases ha
    rw [benchmarkSpi_ok (n + 1) crc verbose h, List.replicate_succ, List.flatten_cons, h3, h4]
    rfl
  case writes =>
    rw [wordWrites_eq_map] at ha
    rw [run_limbWrites (x := s.word) 4 le_rfl hr hp rfl ha, writeLimbs_eq (by omega) hs hw]

end Sys2Proof.Machine
end

section
/-! PROOFS. The functions of the Transaction Orchestrator (42_transactions.md R153, R154, R158, R159): the OR of two
frames, and what the check finds in it. -/

namespace Sys2Proof.Machine

/-! ### `reassemble` -/

/-- `BE` takes the OR of two values byte by byte. -/
theorem be_or (v w n : Nat) : be (v ||| w) n = List.zipWith (· ||| ·) (be v n) (be w n) := by
  induction n with
  | zero => rfl
  | succ n ih => rw [be, be, be, ih, Nat.shiftRight_or_distrib, BitVec.ofNat_or, List.zipWith_cons_cons]

/-- The bytes of the full word are those of the two frames, ORed one by one (R153). -/
theorem be_reassemble {tx rx : Frame} (h : tx.length = rx.length) :
    be (reassemble tx rx) tx.length = List.zipWith (· ||| ·) rx tx := by
  have hrx : be (intOf rx) tx.length = rx := h ▸ be_intOf rx
  rw [reassemble, be_or, be_intOf, hrx]

/-- The full word of two frames of one length fits it (R153). -/
theorem reassemble_lt {tx rx : Frame} (h : tx.length = rx.length) : reassemble tx rx < 2 ^ (8 * tx.length) :=
  Nat.or_lt_two_pow (h ▸ intOf_lt rx) (intOf_lt tx)

/-- Settles O12: by the bytes of the full word. -/
theorem reassembleIsBytewiseOr : Obligations.ReassembleIsBytewiseOr := by
  intro tx rx h
  refine ⟨rfl, reassemble_lt h, fun i hr ht => ?_⟩
  rw [be_reassemble h, List.getElem?_zipWith, List.getElem?_eq_getElem hr, List.getElem?_eq_getElem ht]

/-- A frame of zero bytes has the value 0. -/
theorem intOf_eq_zero {f : Frame} (h : ∀ b ∈ f, b = 0) : intOf f = 0 := by
  induction f with
  | nil => rfl
  | cons b f ih =>
    obtain ⟨rfl, hf⟩ := List.forall_mem_cons.mp h
    rw [intOf_cons, ih hf]
    simp

/-- An outbound frame of zero bytes leaves the full word to the answer (R159 (a)). -/
theorem reassemble_zero_left {tx : Frame} (rx : Frame) (h : ∀ b ∈ tx, b = 0) : reassemble tx rx = intOf rx := by
  rw [reassemble, intOf_eq_zero h, Nat.or_zero]

/-- An answer of zero bytes leaves the full word to the outbound frame (R159 (d)). -/
theorem reassemble_zero_right {rx : Frame} (tx : Frame) (h : ∀ b ∈ rx, b = 0) : reassemble tx rx = intOf tx := by
  rw [reassemble, intOf_eq_zero h, Nat.zero_or]

/-- A bit sent is a bit of the full word, whatever was received (R159 (b)). -/
theorem reassemble_testBit_of_sent {tx : Frame} (rx : Frame) {k : Nat} (h : (intOf tx).testBit k = true) :
    (reassemble tx rx).testBit k = true := by
  rw [reassemble, Nat.testBit_or, h, Bool.or_true]

/-! ### `crc_check` -/

/-- What lies above the CRC bytes of a full word fits the bytes of the payload (R154). -/
theorem payload_lt {full bc n : Nat} (h : full < 2 ^ (8 * (bc + n))) : full / 2 ^ (8 * n) < 2 ^ (8 * bc) := by
  rw [Nat.div_lt_iff_lt_mul (Nat.two_pow_pos _), ← pow_add, ← Nat.mul_add]
  exact h

/-- The pad bits lie above the received CRC and below the payload, so the check does not see them (R158). -/
theorem crcCheck_xor_pad {pad W : Nat} (full bc P I : Nat) (h : pad < 2 ^ (8 * crcByteCount W - W)) :
    crcCheck (full ^^^ (pad <<< W)) bc W P I = crcCheck full bc W P I := by
  have hbelow : (pad <<< W) % 2 ^ W = 0 := by rw [Nat.shiftLeft_eq, Nat.mul_mod_left]
  have habove : (pad <<< W) >>> (8 * crcByteCount W) = 0 := by
    apply Nat.shiftRight_eq_zero
    calc pad <<< W < 2 ^ (8 * crcByteCount W - W) * 2 ^ W := by
          rw [Nat.shiftLeft_eq]
          exact Nat.mul_lt_mul_of_pos_right h (Nat.two_pow_pos W)
      _ = 2 ^ (8 * crcByteCount W) := by
          rw [← pow_add, Nat.sub_add_cancel (by unfold crcByteCount; omega)]
  have hcrc : (full ^^^ (pad <<< W)) % 2 ^ W = full % 2 ^ W := by rw [Nat.xor_mod_two_pow, hbelow, Nat.xor_zero]
  have hpayload : (full ^^^ (pad <<< W)) >>> (8 * crcByteCount W) = full >>> (8 * crcByteCount W) := by
    rw [Nat.shiftRight_xor_distrib, habove, Nat.xor_zero]
  simp only [crcCheck, crcCheckBy, hcrc, hpayload]

/-- Settles O13: result by result, and by the place of the pad bits. -/
theorem crcCheckRule : Obligations.CrcCheckRule := by
  refine ⟨fun full bc W P I _ _ _ hfull => ⟨rfl, ?payload, ?fits, rfl, bne_iff_ne⟩,
    fun full pad bc W P I h => crcCheck_xor_pad full bc P I h⟩
  case payload => exact Nat.shiftRight_eq_div_pow full _
  case fits => exact (Nat.shiftRight_eq_div_pow full _).trans_lt (payload_lt hfull)

/-! ### The check of an OR -/

/-- The received CRC of a full word is the OR of the CRC received and the CRC sent (R159 (c)). -/
theorem crcCheck_reassemble_crcrx {word bc W P I : Nat} {tx : Frame} (rx : Frame) (hbc : 1 ≤ bc) (hW : 1 ≤ W)
    (hP : P < 2 ^ W) (hI : I < 2 ^ W) (h : encodeFrame word bc true W P I = some tx) :
    (crcCheck (reassemble tx rx) bc W P I).crcrx = (intOf rx % 2 ^ W) ||| computeCrc (be word bc) W P I := by
  have hsent : intOf tx % 2 ^ W = computeCrc (be word bc) W P I :=
    congrArg CrcCheck.crcrx (ownFrameChecks word bc W P I tx hbc hW hP hI h)
  calc (crcCheck (reassemble tx rx) bc W P I).crcrx = (intOf rx ||| intOf tx) % 2 ^ W := rfl
    _ = _ := by rw [Nat.or_mod_two_pow, hsent]

/-- Two well-formed frames whose OR is flagged: the CRC of width 1 is the parity of the word's bits, which is 1 for the
words 1 and 2 and 0 for their OR. -/
theorem overlay_flagged :
    encodeFrame 1 1 true 1 1 0 = some [1, 1] ∧ encodeFrame 2 1 true 1 1 0 = some [2, 1] ∧
      (crcCheck (reassemble [1, 1] [2, 1]) 1 1 1 0).mismatch = true := by
  decide

/-- Settles O15: consequence by consequence; an answer of zero bytes leaves the block's own frame, which checks. -/
theorem overlayConsequences : Obligations.OverlayConsequences := by
  refine ⟨fun tx rx _ => ⟨reassemble_zero_left rx, fun k => reassemble_testBit_of_sent rx⟩,
    fun word bc W P I tx rx hbc hW hP hI h _ => ⟨crcCheck_reassemble_crcrx rx hbc hW hP hI h, fun hzero => ?zeroAnswer⟩,
    ?flagged⟩
  case zeroAnswer =>
    have hfull := reassemble_zero_right tx hzero
    rw [hfull, ownFrameChecks word bc W P I tx hbc hW hP hI h]
    exact ⟨rfl, rfl, rfl⟩
  case flagged =>
    obtain ⟨hsent, hanswer, hmismatch⟩ := overlay_flagged
    exact ⟨1, 2, 1, 1, 1, 0, [1, 1], [2, 1], le_rfl, le_rfl, by decide, by decide, hsent, hanswer, hmismatch⟩

end Sys2Proof.Machine
end

section
/-! PROOFS. The transactions WRITE and READ, run to their end (42_transactions.md R150, R151, R155, R156, R160, R161), and
as one step of level C (00_scope.md R15). -/

namespace Sys2Proof.Machine

/-! ### The phases that WRITE and READ share -/

section
variable {i : Instr} {c v : Bool} {s : State}

/-- In READY a transaction is accepted into phase ENCODE (R160, R161). -/
theorem exec_transaction_ready (hi : i = .write c v ∨ i = .read c v) (hp : s.phase = .idle)
    (hl : s.lifecycle = .ready) : exec i s = .next (enterEncode s) := by
  rcases hi with rfl | rfl
  · simp [exec, execWrite, hp, whenAllowed_of_ready _ _ hl]
  · simp [exec, execRead, hp, whenAllowed_of_ready _ _ hl]

/-- The ENCODE phase is the same in both transactions. -/
theorem exec_transaction_encode (hi : i = .write c v ∨ i = .read c v) (hp : s.phase = .encode) :
    exec i s = .next (encodePhase c toExchange s) := by
  rcases hi with rfl | rfl
  · simp only [exec, execWrite, hp]
  · simp only [exec, execRead, hp]

/-- A word that does not fit ends a transaction with OverflowError (60_exceptions.md R202). -/
theorem exec_transaction_overflow (hi : i = .write c v ∨ i = .read c v) (hp : s.phase = .encode)
    (hw : 2 ^ (8 * s.bc) ≤ s.word) : exec i s = .next (raise .overflowError s) := by
  rcases encodePhase_cases c toExchange s with ⟨-, e⟩ | ⟨hfits, -⟩
  · rw [exec_transaction_encode hi hp, e]
  · omega

/-- A word that fits is stored as the outbound frame. -/
theorem exec_transaction_stores (hi : i = .write c v ∨ i = .read c v) (hp : s.phase = .encode)
    (hw : s.word < 2 ^ (8 * s.bc)) : exec i s = .next (toExchange (storeOutbound c (s.outFrame c) s)) := by
  rcases encodePhase_cases c toExchange s with ⟨hover, -⟩ | ⟨-, e⟩
  · omega
  · rw [exec_transaction_encode hi hp, e]
    rfl

/-- The outbound frame is that of `encode` over the locked configuration, and the transaction goes on to EXCHANGE
(R150). -/
theorem exec_transaction_fits (hi : i = .write c v ∨ i = .read c v) (hinv : s.Inv) (hp : s.phase = .encode)
    (hw : s.word < 2 ^ (8 * s.bc)) :
    ∃ buf : Buffer, buf.length = s.sizes.nfMax ∧
      encodeFrame s.word s.bc c s.cw.toNat s.cpoly s.cinit = some (bufferPrefix buf (s.nf c)) ∧
      exec i s = .next
        { s with
          txf := buf
          txlen := s.nf c
          creg := if c then computeCrc (be s.word s.bc) s.cw.toNat s.cpoly s.cinit else s.creg
          draws := s.draws + s.sizes.nfMax
          phase := .exchange } := by
  have hl : s.lifecycle = .ready := ready_of_busy hinv (by simp [hp])
  refine ⟨loadBuffer (s.outFrame c) s.draws s.sizes.nfMax, loadBuffer_length _ _ _, ?frame, ?step⟩
  case frame => rw [bufferPrefix_outFrame c _ hinv hl, encodeFrame_eq_outFrame c hinv hl hw]
  case step =>
    rw [exec_transaction_stores hi hp hw, storeOutbound_outFrame c hinv hl]
    rfl

end

/-- The EXCHANGE phase of a running command loads `RXF` with the stand-in bytes and sets `MHW` when no bus is present,
and makes one exchange and loads the answer otherwise (R151; 20_memory.md R70, R71). -/
theorem storeInbound_running {s : State} (hinv : s.Inv) (hp : s.phase = .exchange) :
    ∃ buf : Buffer, buf.length = s.sizes.nfMax ∧
      bufferPrefix buf s.txlen = (if s.nobus then bufferPrefix s.standin s.txlen else busAnswer s s.txlen) ∧
      (bufferPrefix buf s.txlen).length = s.txlen ∧
      storeInbound s =
        { s with
          rxf := buf
          rxlen := s.txlen
          mhw := s.nobus
          busIn := if s.nobus then s.busIn else s.busIn.drop s.txlen
          busLog := if s.nobus then s.busLog else s.busLog ++
            [{ busidx := s.busidx, devidx := s.devidx, ckmode := s.ckmode, ckrate := s.ckrate,
               out := bufferPrefix s.txf s.txlen }]
          draws := s.draws + s.txlen + s.sizes.nfMax } := by
  obtain ⟨⟨⟨-, -, -, -, -, -, -, -, -, -, -, hstandin⟩, -, -, -, hfit, -⟩, ⟨-, hmhw, -⟩, -⟩ := (inv_iff s).mp hinv
  have hlen : (inboundFrame s s.txlen).length = s.txlen := inboundFrame_length s _ (by omega)
  have hrx : bufferPrefix (storeInbound s).rxf s.txlen = inboundFrame s s.txlen := rxFrame_storeInbound hlen hfit
  have hflag : (if s.nobus then true else s.mhw) = s.nobus := by
    rw [hmhw (.inr hp)]
    cases s.nobus <;> rfl
  refine ⟨(storeInbound s).rxf, loadBuffer_length _ _ _, hrx, by rw [hrx, hlen], ?_⟩
  rw [storeInbound, hflag]
  rfl

/-- Settles O30: acceptance and ENCODE as in every transaction, and EXCHANGE as its stores, after which WRITE is done. -/
theorem writeCompletes : Obligations.WriteCompletes := by
  refine ⟨fun c v s => exec_transaction_ready (.inl rfl), fun c v s => exec_transaction_fits (.inl rfl),
    fun c v s hinv hp => ?_⟩
  obtain ⟨buf, hbuf, hframe, hlen, hstore⟩ := storeInbound_running hinv hp
  refine ⟨buf, hbuf, hframe, hlen, ?_⟩
  rw [exec_write_exchange c v hp, hstore]
  rfl

/-! ### The phases of READ after the exchange -/

/-- The REASSEMBLE phase of READ without CRC ends the command (R155, R161). -/
theorem exec_read_reassemble_plain {s : State} (v : Bool) (hp : s.phase = .reassemble) :
    exec (.read false v) s = .next (finish (storePlainRead s)) := by
  simp [exec, execRead, reassemblePhase, hp]

/-- The REASSEMBLE phase of READ with CRC goes on to CHECK (R155, R161). -/
theorem exec_read_reassemble_crc {s : State} (v : Bool) (hp : s.phase = .reassemble) :
    exec (.read true v) s = .next (storeFull s) := by
  simp [exec, execRead, reassemblePhase, hp]

/-- In READY the CHECK phase stores the results of `crc_check` over the locked configuration (R156). -/
theorem exec_read_check {s : State} (v : Bool) (hrun : ∀ f, s.engineRun f = computeCrc f s.cw.toNat s.cpoly s.cinit)
    (hp : s.phase = .check) :
    exec (.read true v) s = .next (finish (storeCheck (crcCheck s.full s.bc s.cw.toNat s.cpoly s.cinit) s)) := by
  simp [exec, execRead, checkPhase, crcCheck, hp, funext hrun]

/-- In REASSEMBLE both frames of a READ have the length of its frame. -/
theorem lengths_of_reassemble {s : State} {c v : Bool} (hinv : s.Inv) (hp : s.phase = .reassemble)
    (hd : decode s.cmd = .ok (.read c v)) : s.txlen = s.nf c ∧ s.rxlen = s.txlen := by
  obtain ⟨-, -, hflow⟩ := (inv_iff s).mp hinv
  obtain ⟨-, -, hframes⟩ := (flowOk_running_iff (by simp [hp]) hd).mp hflow
  simpa [framesReady, crcFlagOf, hp] using hframes

/-- The full word of REASSEMBLE is that of the outbound and the inbound frame, if they have one length. -/
theorem fullWord_eq_reassemble {s : State} (h : s.rxlen = s.txlen) : s.fullWord = reassemble s.txFrame s.rxFrame := by
  rw [State.fullWord, State.txFrame, State.rxFrame, h]

/-- In CHECK the full word fits the frame with CRC. -/
theorem full_lt_of_check {s : State} (hinv : s.Inv) (hp : s.phase = .check) : s.full < 2 ^ (8 * s.nf true) := by
  obtain ⟨-, -, hflow⟩ := (inv_iff s).mp hinv
  have hbusy : s.phase ≠ .idle := by simp [hp]
  cases hd : decode s.cmd with
  | error e => simp [State.flowOk, hp, hd] at hflow
  | ok i =>
    obtain ⟨-, -, hframes⟩ := (flowOk_running_iff hbusy hd).mp hflow
    simpa [framesReady, hp] using hframes

/-- Settles O31: acceptance, ENCODE and EXCHANGE as in WRITE; in REASSEMBLE the two frames have one length, and in CHECK
the full word fits them. -/
theorem readCompletes : Obligations.ReadCompletes := by
  refine ⟨fun c v s => exec_transaction_ready (.inr rfl), fun c v s => exec_transaction_fits (.inr rfl),
    fun c v s hinv hp => ?exchange, fun v s hinv hp hd => ?plain, fun v s hinv hp hd => ?crc, fun v s hinv hp => ?check⟩
  case exchange =>
    obtain ⟨buf, hbuf, hframe, hlen, hstore⟩ := storeInbound_running hinv hp
    refine ⟨buf, hbuf, hframe, hlen, ?_⟩
    rw [exec_read_exchange c v hp, hstore]
    rfl
  case plain =>
    obtain ⟨htx, hrx⟩ := lengths_of_reassemble hinv hp hd
    have hl := ready_of_busy hinv (by simp [hp])
    obtain ⟨⟨-, -, -, -, -, -, hpayload, -⟩, -⟩ := storePlainRead_regInv ((inv_iff s).mp hinv).1 hl htx
    rw [exec_read_reassemble_plain v hp, ← fullWord_eq_reassemble hrx]
    exact ⟨hpayload, rfl⟩
  case crc =>
    obtain ⟨htx, hrx⟩ := lengths_of_reassemble hinv hp hd
    have hl := ready_of_busy hinv (by simp [hp])
    obtain ⟨-, -, hnf⟩ := sizes_of_ready ((inv_iff s).mp hinv).1 hl
    rw [exec_read_reassemble_crc v hp, ← fullWord_eq_reassemble hrx, ← htx]
    exact ⟨fullWord_lt s, htx ▸ hnf true, rfl⟩
  case check =>
    have hl := ready_of_busy hinv (by simp [hp])
    have hrun := (blockEngineComputesCrc s hinv hl).2
    have hcheck := storeCheck_regInv ((inv_iff s).mp hinv).1 hl (full_lt_of_check hinv hp)
    rw [funext hrun] at hcheck
    obtain ⟨⟨-, -, -, -, hcrcrx, hcalc, hpayload, -⟩, -⟩ := hcheck
    exact ⟨hcrcrx, hpayload, hcalc, exec_read_check v hrun hp⟩

/-! ### WRITE and READ as one step -/

/-- The frames of `n` bytes that the block can receive: the stand-in bytes when no bus is present, and otherwise one that
begins with the bytes the bus agent has ready (20_memory.md R70, R71). -/
def State.CanReceive (s : State) (n : Nat) (inb : Frame) : Prop :=
  inb.length = n ∧
  (s.nobus = true → inb = bufferPrefix s.standin n) ∧
  (s.nobus = false → inb.take s.busIn.length = s.busIn.take n)

/-- What the EXCHANGE phase receives is such a frame. -/
theorem canReceive_inbound {s : State} {n : Nat} {inb : Frame} (hlen : inb.length = n)
    (h : inb = if s.nobus then bufferPrefix s.standin n else busAnswer s n) : s.CanReceive n inb := by
  refine ⟨hlen, fun hb => by rw [h, hb, if_pos rfl], fun hb => ?_⟩
  rw [h, hb, if_neg (by simp)]
  exact busAnswer_take s n

/-- What a transaction with the command word `w` leaves when its phases ENCODE and EXCHANGE are over and `PHASE` is not
yet written: the two buffers loaded, the CRC of the word in `CREG`, and the one exchange (R150, R151). -/
def State.exchanged (w : Word32) (c : Bool) (txf rxf : Buffer) (draws : Nat) (s : State) : State :=
  { s with
    cmd := w, err := .none, done := false, crcmm := false, mhw := s.nobus, phase := .exchange
    txf := txf
    txlen := s.nf c
    creg := if c then computeCrc (be s.word s.bc) s.cw.toNat s.cpoly s.cinit else s.creg
    rxf := rxf
    rxlen := s.nf c
    busIn := if s.nobus then s.busIn else s.busIn.drop (s.nf c)
    busLog := if s.nobus then s.busLog else s.busLog ++
      [{ busidx := s.busidx, devidx := s.devidx, ckmode := s.ckmode, ckrate := s.ckrate,
         out := bufferPrefix txf (s.nf c) }]
    draws := draws }

section
variable {i : Instr} {c v : Bool} {s : State}

/-- A transaction of a word that does not fit, as one step of level C. -/
theorem runWord_transaction_overflow (hi : i = .write c v ∨ i = .read c v) (hp : s.phase = .idle)
    (hl : s.lifecycle = .ready) (hw : 2 ^ (8 * s.bc) ≤ s.word) :
    runWord (encode i) s = .next
      { s with cmd := encode i, err := .overflowError, done := false, crcmm := false, mhw := false } := by
  rw [runWord_encode_of_enterEncode (exec_transaction_ready hi (s := accept _ s) hp hl)
    (exec_transaction_overflow hi (s := enterEncode (accept _ s)) rfl hw) rfl]
  simp [raise, enterEncode, accept, hp]

/-- A command that is accepted into ENCODE and takes two phase steps has two of its four left. -/
theorem runWord_encode_of_two_phases {t u : State}
    (haccept : exec i (accept (encode i) s) = .next (enterEncode (accept (encode i) s)))
    (hencode : exec i (enterEncode (accept (encode i) s)) = .next t) (ht : t.phase ≠ .idle)
    (hnext : exec i t = .next u) : runWord (encode i) s = finishPhases 2 i u := by
  have hbusy : (enterEncode (accept (encode i) s)).phase ≠ .idle := by simp
  simp only [runWord, decodeOfEncode i, runCommand, haccept, finishPhases_step 3 i _ _ hbusy hencode,
    finishPhases_step 2 i _ _ ht hnext]

/-- A transaction of a word that fits runs through ENCODE and EXCHANGE, and what it does last in EXCHANGE, `go`, is its
own: WRITE is done and READ goes on to REASSEMBLE. -/
theorem runWord_transaction_fits {go : State → State} (hi : i = .write c v ∨ i = .read c v)
    (hgo : ∀ u : State, u.phase = .exchange → exec i u = .next (go (storeInbound u))) (hinv : s.Inv)
    (hp : s.phase = .idle) (hl : s.lifecycle = .ready) (hw : s.word < 2 ^ (8 * s.bc)) :
    ∃ txf rxf draws,
      encodeFrame s.word s.bc c s.cw.toNat s.cpoly s.cinit = some (bufferPrefix txf (s.nf c)) ∧
      s.CanReceive (s.nf c) (bufferPrefix rxf (s.nf c)) ∧
      runWord (encode i) s = finishPhases 2 i (go (s.exchanged (encode i) c txf rxf draws)) := by
  have haccept := exec_transaction_ready hi (s := accept (encode i) s) hp hl
  have hentered := inv_of_accepted hinv hp haccept
  obtain ⟨txf, -, hframe, hencode⟩ := exec_transaction_fits hi hentered rfl hw
  have hsent := (exec_effect hencode).keeps_inv hentered (decodeOfEncode i) (by simp)
  obtain ⟨rxf, -, hinbound, hlen, hstore⟩ := storeInbound_running hsent rfl
  have hreceived := canReceive_inbound hlen hinbound
  have hexchange := congrArg (fun u => (.next (go u) : Result)) hstore
  exact ⟨txf, rxf, _, hframe, hreceived,
    runWord_encode_of_two_phases haccept hencode (by simp) ((hgo _ (by rfl)).trans hexchange)⟩

end

/-- Settles O33: by overflow and fit; after EXCHANGE the command is done. -/
theorem writeAsOneStep : Obligations.WriteAsOneStep := by
  intro c v s hinv hp hl
  refine ⟨runWord_transaction_overflow (.inl rfl) hp hl, fun hw => ?_⟩
  obtain ⟨txf, rxf, draws, hframe, ⟨hlen, hnobus, hbus⟩, hrun⟩ :=
    runWord_transaction_fits (.inl rfl) (fun u => exec_write_exchange c v) hinv hp hl hw
  rw [finishPhases_idle 2 _ _ (by simp)] at hrun
  refine ⟨_, _, _, hrun, hframe, hlen, hnobus, hbus, rfl, rfl, rfl, rfl, ?_⟩
  simp [finish, State.exchanged, hp]

/-- The phases of READ after the exchange, as one step of level C: the full word, and with the flag what the check finds
in it (R155, R156). -/
def readEnd (c : Bool) (s : State) : State :=
  if c then finish (storeCheck (crcCheck s.fullWord s.bc s.cw.toNat s.cpoly s.cinit) (storeFull s))
  else finish (storePlainRead s)

/-- After the exchange READ has two phase steps left at most. -/
theorem finishPhases_read {s : State} (c v : Bool)
    (hrun : ∀ f, s.engineRun f = computeCrc f s.cw.toNat s.cpoly s.cinit) (hp : s.phase = .reassemble) :
    finishPhases 2 (.read c v) s = .next (readEnd c s) := by
  have hbusy : s.phase ≠ .idle := by simp [hp]
  cases c with
  | false =>
    rw [finishPhases_step 1 _ _ _ hbusy (exec_read_reassemble_plain v hp), finishPhases_idle 1 _ _ rfl]
    rfl
  | true =>
    rw [finishPhases_step 1 _ _ _ hbusy (exec_read_reassemble_crc v hp),
      finishPhases_step 0 _ _ _ (by simp) (exec_read_check (s := storeFull s) v hrun rfl), finishPhases_idle 0 _ _ rfl]
    rfl

/-- Settles O34: by overflow and fit; what follows the exchange is two more phases, with the flag and without it. -/
theorem readAsOneStep : Obligations.ReadAsOneStep := by
  intro c v s hinv hp hl
  refine ⟨runWord_transaction_overflow (.inr rfl) hp hl, fun hw => ?_⟩
  obtain ⟨txf, rxf, draws, hframe, ⟨hlen, hnobus, hbus⟩, hrun⟩ :=
    runWord_transaction_fits (.inr rfl) (fun u => exec_read_exchange c v) hinv hp hl hw
  have hengine := (blockEngineComputesCrc s hinv hl).2
  rw [finishPhases_read (s := toReassemble (s.exchanged _ c txf rxf draws)) c v hengine rfl] at hrun
  cases c with
  | false =>
    refine ⟨_, _, _, hrun, hframe, hlen, hnobus, hbus, rfl, rfl, rfl, rfl, rfl, fun _ => ⟨rfl, rfl, rfl, rfl, rfl⟩,
      fun h => absurd h (by decide), ?_⟩
    simp [readEnd, finish, storePlainRead, toReassemble, State.exchanged, hp]
  | true =>
    refine ⟨_, _, _, hrun, hframe, hlen, hnobus, hbus, rfl, rfl, rfl, rfl, rfl, fun h => absurd h (by decide),
      fun _ => ⟨rfl, rfl, rfl, rfl, rfl⟩, ?_⟩
    simp [readEnd, finish, storeCheck, storeFull, toReassemble, State.exchanged, hp]

end Sys2Proof.Machine
end

section
/-! PROOFS. CONFIGURE and the lock of the configuration (43_system_and_host.md R180 to R183). -/

namespace Sys2Proof.Machine

/-! ### CONFIGURE -/

/-- Settles O24: `valid_config()` is the conjunction of the conditions, as a Boolean. -/
theorem validConfigConditions : Obligations.ValidConfigConditions := by
  intro s
  simp only [State.validConfig, Bool.and_eq_true, decide_eq_true_eq, beq_iff_eq, and_assoc]

/-- CONFIGURE of an idle block that is UNCONFIGURED does its work at acceptance (R180). -/
theorem exec_configure_unconfigured {s : State} (hp : s.phase = .idle) (hl : s.lifecycle = .unconfigured) :
    exec .configure s = .next (configureBlock s) := by
  simp [exec, execConfigure, hp, whenAllowed, allowedIn, hl]

/-- Settles O25: by the validity of the configuration; a block without a table gets none. -/
theorem configureCompletes : Obligations.ConfigureCompletes := by
  intro s hp hl
  rw [exec_configure_unconfigured hp hl]
  rcases configureBlock_cases s with ⟨hv, e⟩ | ⟨hv, e⟩
  · refine ⟨fun _ => ?_, fun hn => by simp [hv] at hn⟩
    rw [e]
    cases ht : s.ctab <;> simp [finish, makeReady, hp, ht]
  · refine ⟨fun hn => by simp [hv] at hn, fun _ => ?_⟩
    rw [e]
    simp [raise, hp]

/-! ### A command that the lifecycle does not allow -/

/-- At level C a command that the lifecycle does not allow is its acceptance and BadState (30_encoding.md R85). -/
theorem runWord_of_not_allowed {w : Word32} {i : Instr} {s : State} (hp : s.phase = .idle) (hd : decode w = .ok i)
    (ha : allowedIn i s.lifecycle = false) : runWord w s = .next (raise .badState (accept w s)) := by
  obtain rfl := encode_of_decode hd
  exact runWord_encode_of_idle (exec_of_not_allowed hp ha) rfl

/-- At level C an illegal word is its acceptance and IllegalCommand (30_encoding.md R84). -/
theorem runWord_of_illegal {w : Word32} {e : IllegalWord} (s : State) (hd : decode w = .error e) :
    runWord w s = .next (raise .illegalCommand (accept w s)) := by
  simp only [runWord, hd]

/-- FAILED allows no command (R183). -/
theorem allowedIn_failed (i : Instr) : allowedIn i .failed = false := by
  cases i <;> rfl

/-- Settles O38: a word that decodes is well formed and not allowed, any other word is illegal. -/
theorem failedDoesNoWork : Obligations.FailedDoesNoWork := by
  intro s w hp hl
  cases hw : wordWellFormed w with
  | true =>
    obtain ⟨i, hd⟩ := (legalWordsAreTheWellFormed.1 w).mpr hw
    rw [runWord_of_not_allowed hp hd (hl ▸ allowedIn_failed i)]
    simp [raise, accept, hp]
  | false =>
    obtain ⟨e, hd⟩ := decode_of_not_wordWellFormed hw
    rw [runWord_of_illegal s hd]
    simp [raise, accept, hp]

/-! ### The lock -/

/-- The configuration fields and the lifecycle are those of `s`. -/
def ConfigKept (s t : Block) : Prop :=
  t.busidx = s.busidx ∧ t.devidx = s.devidx ∧ t.ckmode = s.ckmode ∧ t.nobus = s.nobus ∧ t.ckrate = s.ckrate ∧
    t.wlen = s.wlen ∧ t.cw = s.cw ∧ t.cpoly = s.cpoly ∧ t.cinit = s.cinit ∧ t.lifecycle = s.lifecycle

/-- Outside UNCONFIGURED no effect of a command touches the configuration or the lifecycle. -/
theorem ExecEffect.keeps_config {i : Instr} {s t : State} (heff : ExecEffect i s t)
    (hl : s.lifecycle ≠ .unconfigured) : ConfigKept s.toBlock t.toBlock := by
  unfold ConfigKept
  cases heff with
  | configured _ _ hu | configurationError _ _ hu => exact absurd hu hl
  | _ => simp

/-- Outside UNCONFIGURED the acceptance of a word touches neither. -/
theorem issue_keeps_config {w : Word32} {s t : State} (hl : s.lifecycle ≠ .unconfigured) (h : issue w s = .next t) :
    ConfigKept s.toBlock t.toBlock := by
  rcases issue_cases w s t h with ⟨i, -, he⟩ | ⟨-, rfl⟩
  · exact (exec_effect he).keeps_config hl
  · simp [ConfigKept]

/-- Outside UNCONFIGURED a register write touches neither: it writes `WORD` and `STANDIN` only. -/
theorem writeAt_keeps_config {s : State} (addr : Nat) (v : Word32) (hl : s.lifecycle ≠ .unconfigured) :
    ConfigKept s.toBlock (writeAt addr v s).toBlock := by
  rcases writeAt_cases addr v s with e | ⟨j, e⟩ | ⟨j, e⟩ | ⟨hu, -⟩
  · simp [ConfigKept, e]
  · simp [ConfigKept, e]
  · simp [ConfigKept, e]
  · exact absurd hu hl

/-- Outside UNCONFIGURED a step that is no turn of the reset input touches neither. -/
theorem step_keeps_config {s t : State} (h : step s = .next t) (hl : s.lifecycle ≠ .unconfigured)
    (hn : ∀ level rest, s.agenda ≠ .rst level :: rest) : ConfigKept s.toBlock t.toBlock := by
  rcases step_block_cases h hn with same | ⟨-, w, rest, -, -, issued⟩ | ⟨-, addr, v, rest, -, rfl⟩ | ⟨-, i, rest, heff⟩
  · simp [ConfigKept, same]
  · exact issue_keeps_config (s := { s with agenda := rest }) hl issued
  · exact writeAt_keeps_config (s := { s with agenda := rest }) addr v hl
  · exact heff.keeps_config hl

/-- Outside UNCONFIGURED a write at a configuration offset is ignored (R182). -/
theorem writeAt_locked {s : State} {addr : Nat} (v : Word32) (hl : s.lifecycle ≠ .unconfigured) (hlo : 0x10 ≤ addr)
    (hhi : addr ≤ 0x2C) : writeAt addr v s = s := by
  rcases regAt_cases addr with ⟨r, rfl⟩ | hnone
  · rw [writeAt_offset]
    cases r with
    | bussel | ckrate | wlen | cwidth | cpoly | cinit => exact if_neg hl
    | word j | standin j =>
      simp only [RegName.offset] at hhi
      omega
    | _ => rfl
  · exact writeAt_reserved v s hnone

/-! ### The last write counts -/

/-- Of two writes to one limb the second counts. -/
theorem setLimb_setLimb (width x j : Nat) (v v' : Word32) :
    setLimb width (setLimb width x j v) j v' = setLimb width x j v' := by
  apply Nat.ext_div_modEq (n := 2 ^ (32 * j))
  · rw [← Nat.shiftRight_eq_div_pow, ← Nat.shiftRight_eq_div_pow, setLimb_shiftRight, setLimb_shiftRight,
      setLimb_shiftRight_next]
  · rw [Nat.ModEq, setLimb_mod, setLimb_mod, setLimb_mod]

/-- Of two writes to the same bytes of a buffer the second counts. -/
theorem setBufferLimb_setBufferLimb (b : Buffer) (j : Nat) (v v' : Word32) :
    setBufferLimb (setBufferLimb b j v) j v' = setBufferLimb b j v' := by
  apply List.ext_getElem
  · simp
  · intro i _ _
    by_cases h : i / 4 = j <;> simp [setBufferLimb, h]

/-- Of two writes to one register the second counts. -/
theorem writeReg_writeReg (r : RegName) (v v' : Word32) (s : State) :
    writeReg r v' (writeReg r v s) = writeReg r v' s := by
  cases r with
  | word j => simp only [writeReg, setLimb_setLimb]
  | standin j => simp only [writeReg, setBufferLimb_setBufferLimb]
  | bussel | ckrate | wlen | cwidth | cpoly | cinit =>
    by_cases hl : s.lifecycle = .unconfigured <;> simp [writeReg, hl, setLimb_setLimb]
  | _ => rfl

/-- Of two writes at one offset the second counts. -/
theorem writeAt_writeAt (addr : Nat) (v v' : Word32) (s : State) :
    writeAt addr v' (writeAt addr v s) = writeAt addr v' s := by
  rcases regAt_cases addr with ⟨r, rfl⟩ | hnone
  · simp only [writeAt_offset, writeReg_writeReg]
  · rw [writeAt_reserved v s hnone]

/-- A defined write while a command runs is dropped (20_memory.md R64 (a)). -/
theorem memWrite_busy {addr bytes : Nat} {s : State} (v : Word32) (hd : accessDefined addr bytes = true)
    (hp : s.phase ≠ .idle) : memWrite addr bytes v s = .next s := by
  simp [memWrite, State.busy, hd, hp]

/-- Settles O43: step by step outside UNCONFIGURED, and write by write at the configuration offsets. -/
theorem configurationIsLocked : Obligations.ConfigurationIsLocked := by
  have defined : ∀ addr, addr ≤ 0x2C → addr % 4 = 0 → accessDefined addr 4 = true := fun addr hhi ha =>
    accessDefined_iff.mpr ⟨rfl, ha, by omega⟩
  refine ⟨fun s t h hl hn => step_keeps_config h hl hn, ?locked, ?written, fun s addr v v' _ _ => writeAt_writeAt ..⟩
  case locked =>
    intro s addr v rest hl hr hagenda hlo hhi ha
    rw [step_hostWrite hr hagenda]
    by_cases hp : s.phase = .idle
    · rw [memWrite_register (s := { s with agenda := rest }) v (defined addr hhi ha) hp (by omega),
        writeAt_locked (s := { s with agenda := rest }) v hl hlo hhi]
    · exact memWrite_busy v (defined addr hhi ha) hp
  case written =>
    intro s addr v rest hp hr hagenda hlo hhi ha
    rw [step_hostWrite hr hagenda]
    exact memWrite_register v (defined addr hhi ha) hp (by omega)

end Sys2Proof.Machine
end
section
/-! PROOFS. Start-up, and the start of a process (43_system_and_host.md R184, R185; 70_reset_and_hazards.md R232, R233):
the register writes of the configuration, CONFIGURE, and the reset before them. -/

namespace Sys2Proof.Machine

/-! ### A run of register writes -/

/-- A register write touches neither the phase nor the reset input. -/
theorem writeReg_phase_rst (r : RegName) (v : Word32) (s : State) :
    (writeReg r v s).phase = s.phase ∧ (writeReg r v s).rst = s.rst := by
  obtain ⟨_, _, _, _, _, _, _, _, _, _, _, e⟩ := writeAt_frame r.offset v s
  rw [← writeAt_offset, e]
  exact ⟨rfl, rfl⟩

/-- A register write neither reads nor writes the agenda. -/
theorem writeReg_agenda (r : RegName) (v : Word32) (s : State) (a : List Turn) :
    { writeReg r v s with agenda := a } = writeReg r v { s with agenda := a } := by
  cases r with
  | bussel | ckrate | wlen | cwidth | cpoly | cinit => by_cases hl : s.lifecycle = .unconfigured <;> simp [writeReg, hl]
  | _ => rfl

/-- A register and the value to be written to it. -/
abbrev RegWrite := RegName × Word32

/-- The host's access that makes a register write. -/
def RegWrite.turn (x : RegWrite) : Turn := .hostWrite x.1.offset 4 x.2

/-- Every named register has an aligned offset in the register space, and only that of `CMD` is 0. -/
theorem RegName.offset_defined (r : RegName) : accessDefined r.offset 4 = true ∧ (r ≠ .cmd → r.offset ≠ 0x00) := by
  rw [accessDefined_iff]
  cases r <;> simp [offset] <;> omega

/-- The host's write to a register but `CMD` of an idle block, as one step. -/
theorem step_regWrite {s : State} {x : RegWrite} {rest : List Turn} (hr : s.rst = false) (hp : s.phase = .idle)
    (hx : x.1 ≠ .cmd) (ha : s.agenda = x.turn :: rest) :
    step s = .next (writeReg x.1 x.2 { s with agenda := rest }) := by
  obtain ⟨hd, hne⟩ := x.1.offset_defined
  rw [step_hostWrite hr ha, memWrite_register (s := { s with agenda := rest }) _ hd hp (hne hx), writeAt_offset]

/-- Register writes, one after another. -/
def writeRegs : List RegWrite → State → State
  | [], s => s
  | x :: ws, s => writeRegs ws (writeReg x.1 x.2 s)

/-- A run of register writes, one step each, and the steps after them. -/
theorem run_regWrites (ws : List RegWrite) {s : State} {rest : List Turn} (k : Nat) (hr : s.rst = false)
    (hp : s.phase = .idle) (hws : ∀ x ∈ ws, x.1 ≠ .cmd) (ha : s.agenda = ws.map RegWrite.turn ++ rest) :
    Host.Core.run core (ws.length + k) s
      = Host.Core.run core k (writeRegs ws { s with agenda := rest }) := by
  induction ws generalizing s with
  | nil =>
    obtain rfl : s.agenda = rest := ha
    rw [List.length_nil, Nat.zero_add]
    rfl
  | cons x ws ih =>
    obtain ⟨hx, hws⟩ := List.forall_mem_cons.mp hws
    have hnext : s.agenda = x.turn :: (ws.map RegWrite.turn ++ rest) := ha
    obtain ⟨hphase, hrst⟩ := writeReg_phase_rst x.1 x.2 { s with agenda := ws.map RegWrite.turn ++ rest }
    rw [List.length_cons, Nat.add_right_comm, run_succ_of_step (step_regWrite hr hp hx hnext),
      ih (hrst.trans hr) (hphase.trans hp) hws (by rw [← writeReg_agenda]), writeReg_agenda]
    rfl

/-! ### The configuration in the registers -/

/-- The limbs of a register from those written on are as before. -/
theorem writeLimbs_shiftRight (width w x n : Nat) : writeLimbs width w x n >>> (32 * n) = x >>> (32 * n) := by
  induction n with
  | zero => rfl
  | succ n ih => rw [writeLimbs, setLimb_shiftRight_next, Nat.mul_succ, Nat.shiftRight_add, ih, Nat.shiftRight_add]

/-- A register that held nothing above `n` limbs holds the value once they are written. -/
theorem writeLimbs_eq_of_lt {width w x n : Nat} (hx : x < 2 ^ (32 * n)) (hw : w < 2 ^ (32 * n))
    (hwidth : w < 2 ^ width) : writeLimbs width w x n = w := by
  apply Nat.ext_div_modEq (n := 2 ^ (32 * n))
  · rw [← Nat.shiftRight_eq_div_pow, writeLimbs_shiftRight, Nat.shiftRight_eq_div_pow, Nat.div_eq_of_lt hx,
      Nat.div_eq_of_lt hw]
  · exact writeLimbs_mod x n hwidth

/-- The block with the host's configuration in its registers. -/
def ToolConfig.storedIn (g : ToolConfig) (s : State) : State :=
  { s with
    busidx := g.busidx, devidx := g.devidx, ckmode := g.ckmode, nobus := g.nobus, ckrate := g.ckrate
    wlen := g.wlen, cw := g.cw, cpoly := g.cpoly, cinit := g.cinit }

/-- The register writes of start-up (R184). -/
def ToolConfig.regWrites (g : ToolConfig) : List RegWrite :=
  [(.bussel, (g.storedIn State.reset).regValue .bussel), (.ckrate, g.ckrate), (.wlen, g.wlen.setWidth 32),
   (.cwidth, g.cw.setWidth 32), (.cpoly 0, limb g.cpoly 0), (.cpoly 1, limb g.cpoly 1), (.cinit 0, limb g.cinit 0),
   (.cinit 1, limb g.cinit 1)]

/-- Start-up is these writes, CONFIGURE, and the wait. -/
theorem startUp_eq (g : ToolConfig) :
    startUp g = g.regWrites.map RegWrite.turn ++ [.hostWrite 0x00 4 (encode .configure), .hostWait] := rfl

/-- In an UNCONFIGURED block the register writes of start-up leave the host's configuration. -/
theorem regWrites_stored {s : State} (g : ToolConfig) (hl : s.lifecycle = .unconfigured) (hpoly : s.cpoly < 2 ^ 64)
    (hinit : s.cinit < 2 ^ 64) (gpoly : g.cpoly < 2 ^ min 64 s.sizes.cwMax)
    (ginit : g.cinit < 2 ^ min 64 s.sizes.cwMax) : writeRegs g.regWrites s = g.storedIn s := by
  obtain ⟨hbus, hdev, hmode, -, hno⟩ := bussel_fields (g.storedIn State.reset)
  have limbs : ∀ {x w : Nat}, x < 2 ^ 64 → w < 2 ^ min 64 s.sizes.cwMax →
      setLimb s.sizes.cwMax (setLimb s.sizes.cwMax x 0 (limb w 0)) 1 (limb w 1) = w := fun hx hw =>
    writeLimbs_eq_of_lt (n := 2) hx (hw.trans_le (Nat.pow_le_pow_right (by decide) (Nat.min_le_left _ _)))
      (hw.trans_le (Nat.pow_le_pow_right (by decide) (Nat.min_le_right _ _)))
  simp only [ToolConfig.regWrites, writeRegs, writeReg, hl, if_true, hbus, hdev, hmode, hno,
    Fin.val_zero, Fin.val_one, limbs hpoly gpoly, limbs hinit ginit]
  simp [ToolConfig.storedIn, hl, BitVec.extractLsb'_setWidth_of_le]

/-! ### CONFIGURE after the writes -/

/-- The block after the host has sent CONFIGURE and read `STATUS`: READY or FAILED by the validity of its configuration
(R180), with some table. -/
def State.configured (ctab : Option (Vector Nat 256)) (rest : List Turn) (s : State) : State :=
  let t := { s with
    cmd := encode .configure
    phase := .idle
    lifecycle := if s.validConfig then .ready else .failed
    err := if s.validConfig then .none else .configurationError
    done := s.validConfig
    crcmm := false
    mhw := false
    ctab := ctab
    agenda := rest }
  { t with readData := t.status }

/-- The host's write of CONFIGURE to an UNCONFIGURED block, and its wait. -/
theorem run_configure {s : State} {rest : List Turn} (hr : s.rst = false) (hp : s.phase = .idle)
    (hl : s.lifecycle = .unconfigured) (ha : s.agenda = .hostWrite 0x00 4 (encode .configure) :: .hostWait :: rest) :
    ∃ ctab, Host.Core.run core 2 s = .next (s.configured ctab rest) := by
  have hcmd := step_hostWrite_cmd hr ha hp
  rw [issue_of_decode (decodeOfEncode .configure),
    exec_configure_unconfigured (s := accept _ { s with agenda := .hostWait :: rest }) hp hl] at hcmd
  rcases configureBlock_cases (accept (encode .configure) { s with agenda := .hostWait :: rest })
    with ⟨hv, e⟩ | ⟨hv, e⟩ <;> rw [e] at hcmd
  · have hvalid : s.validConfig = true := hv
    refine ⟨(makeReady s).ctab, (run_succ_of_step hcmd).trans (.trans (run_hostWait_idle hr rfl rfl) ?_)⟩
    rw [State.configured, hvalid]
    rfl
  · have hvalid : s.validConfig = false := hv
    refine ⟨s.ctab, (run_succ_of_step hcmd).trans (.trans (run_hostWait_idle hr rfl rfl) ?_)⟩
    rw [State.configured, hvalid]
    rfl

/-- Start-up on an UNCONFIGURED block. -/
theorem run_startUp {s : State} {g : ToolConfig} {rest : List Turn} (hr : s.rst = false) (hp : s.phase = .idle)
    (hpoly : s.cpoly < 2 ^ 64) (hinit : s.cinit < 2 ^ 64) (gpoly : g.cpoly < 2 ^ min 64 s.sizes.cwMax)
    (ginit : g.cinit < 2 ^ min 64 s.sizes.cwMax) (hl : s.lifecycle = .unconfigured)
    (ha : s.agenda = startUp g ++ rest) :
    ∃ ctab, Host.Core.run core 10 s = .next ((g.storedIn s).configured ctab rest) := by
  rw [startUp_eq, List.append_assoc] at ha
  have hwrites := run_regWrites g.regWrites 2 hr hp (by simp [ToolConfig.regWrites]) ha
  rw [regWrites_stored (s := { s with agenda := _ ++ rest }) g hl hpoly hinit gpoly ginit] at hwrites
  obtain ⟨ctab, hconf⟩ := run_configure
    (s := g.storedIn { s with agenda := .hostWrite 0x00 4 (encode .configure) :: .hostWait :: rest }) hr hp hl rfl
  exact ⟨ctab, hwrites.trans hconf⟩

/-! ### The start of a process -/

/-- A reset leaves the reset values in the block, from every state and whatever the level of the reset input. -/
theorem run_reset {s : State} {rest : List Turn} (n : Nat) (ha : s.agenda = .rst true :: .rst false :: rest) :
    ∃ t, Host.Core.run core (n + 2) s = Host.Core.run core n t ∧ t.rst = false ∧ t.agenda = rest ∧
      t.sizes = s.sizes ∧ t.toBlock = Block.reset s.sizes s.ctab.isSome := by
  have hassert : ∃ u, step s = .next u ∧ u.rst = true ∧ u.agenda = .rst false :: rest := by
    cases hr : s.rst with
    | true => exact ⟨_, step_in_reset hr ha (by simp), hr, rfl⟩
    | false =>
      obtain ⟨u, hu, hrst, hagenda, -⟩ := step_reset_edge ha hr
      exact ⟨u, hu, hrst, hagenda⟩
  obtain ⟨u, hu, hrst, hagenda⟩ := hassert
  obtain ⟨t, ht, hrst', hagenda', hblock⟩ := step_reset_edge hagenda hrst
  obtain ⟨hsizes, htable⟩ := step_keeps_sizes_ctab hu
  rw [hsizes, htable] at hblock
  exact ⟨t, (run_succ_of_step hu).trans (run_succ_of_step ht), hrst', hagenda',
    (step_keeps_sizes_ctab ht).1.trans hsizes, hblock⟩

/-- Settles O58: start-up from its register writes on, and the start of a process as a reset before it. -/
theorem startUpConfigures : Obligations.StartUpConfigures := by
  refine ⟨?startUp, ?process⟩
  case startUp =>
    intro s g rest hr hp hpoly hinit gpoly ginit hl ha
    obtain ⟨ctab, hrun⟩ := run_startUp hr hp hpoly hinit gpoly ginit hl ha
    exact ⟨_, hrun, rfl, rfl, rfl, rfl, rfl, rfl, rfl, rfl, rfl, rfl, rfl, rfl, rfl, rfl⟩
  case process =>
    intro s g rest ha gpoly ginit
    obtain ⟨u, hreset, hr, hagenda, hsizes, hblock⟩ := run_reset 10 ha
    rw [← hsizes] at gpoly ginit
    have hpoly : u.cpoly < 2 ^ 64 := by
      rw [hblock]
      exact Nat.two_pow_pos 64
    have hinit : u.cinit < 2 ^ 64 := by
      rw [hblock]
      exact Nat.two_pow_pos 64
    obtain ⟨ctab, hrun⟩ := run_startUp hr (congrArg Block.phase hblock) hpoly hinit gpoly ginit
      (congrArg Block.lifecycle hblock) hagenda
    exact ⟨_, hreset.trans hrun, hr, rfl, rfl, rfl, rfl, rfl, rfl, rfl, rfl, rfl, rfl, rfl, rfl, rfl, rfl, rfl,
      congrArg Block.txlen hblock, congrArg Block.rxlen hblock, congrArg Block.standin hblock, rfl, rfl⟩

end Sys2Proof.Machine
end
section
/-! PROOFS. What the host reports (43_system_and_host.md R186 to R190): the number it prints, the exit code of a
process, and the run of the benchmark. -/

namespace Sys2Proof.Machine

/-! ### The report of a command line -/

/-- The host sees no error exactly when `ERR` is 0. -/
theorem toolErrorOf_eq_none_iff (e : ErrKind) : toolErrorOf e = none ↔ e = .none := by
  cases e <;> simp [toolErrorOf]

/-- The exit code is 0 exactly on success: `EXIT_FAIL` is not 0 (R190). -/
theorem exitCode_eq_zero_iff (e : Option ToolError) : exitCode e = 0 ↔ e = none := by
  cases e <;> simp [exitCode, Config.exitFail]

/-- The exit code of a command line is 0 exactly when its command ended without an error, whatever it prints. -/
theorem reportAfter_exitCode (number : Option Nat) (s : State) :
    (reportAfter number s).exitCode = 0 ↔ s.err = .none :=
  (exitCode_eq_zero_iff _).trans (toolErrorOf_eq_none_iff s.err)

/-- What the host reads in the four limbs of `FULL` (20_memory.md R62). -/
theorem readFourLimbs_full (s : State) : readFourLimbs s 0x60 = s.full % 2 ^ 128 := by
  have h0 : s.valueAt 0x60 = limb s.full 0 := valueAt_offset s (.full 0)
  have h1 : s.valueAt 0x64 = limb s.full 1 := valueAt_offset s (.full 1)
  have h2 : s.valueAt 0x68 = limb s.full 2 := valueAt_offset s (.full 2)
  have h3 : s.valueAt 0x6C = limb s.full 3 := valueAt_offset s (.full 3)
  have hsum := sum_limbs s.full 4
  simp only [Finset.sum_range_succ, Finset.sum_range_zero] at hsum
  simp only [readFourLimbs, readTwoLimbs, h0, h1, h2, h3, Nat.reduceAdd]
  omega

/-- The exit code of a benchmark is 0 exactly when every command of it ended without an error. -/
theorem benchmarkReport_exitCode (states : List State) :
    (benchmarkReport states).exitCode = 0 ↔ ∀ t ∈ states, t.err = .none := by
  rw [benchmarkReport, exitCode_eq_zero_iff, List.findSome?_eq_none_iff]
  simp only [toolErrorOf_eq_none_iff]

/-! ### The commands of the benchmark -/

/-- A command word of a pair: a WRITE or a READ. -/
def TransactionWord (w : Word32) : Prop := ∃ i c v, (i = .write c v ∨ i = .read c v) ∧ w = encode i

/-- One pair more is a WRITE and a READ in front of the others. -/
theorem benchmarkCommands_succ (n : Nat) (crc verbose : Bool) :
    benchmarkCommands (n + 1) crc verbose =
      encode (.write crc verbose) :: encode (.read crc verbose) :: benchmarkCommands n crc verbose := rfl

/-- The benchmark issues two commands a pair (R189). -/
theorem benchmarkCommands_length (n : Nat) (crc verbose : Bool) :
    (benchmarkCommands n crc verbose).length = 2 * n := by
  induction n with
  | zero => rfl
  | succ n ih =>
    rw [benchmarkCommands_succ, List.length_cons, List.length_cons, ih]
    omega

/-- Every command word of the benchmark is that of a transaction. -/
theorem transactionWord_of_mem_benchmarkCommands {n : Nat} {crc verbose : Bool} {w : Word32}
    (h : w ∈ benchmarkCommands n crc verbose) : TransactionWord w := by
  induction n with
  | zero => cases h
  | succ n ih =>
    rw [benchmarkCommands_succ, List.mem_cons, List.mem_cons] at h
    rcases h with rfl | rfl | h
    · exact ⟨_, _, _, .inl rfl, rfl⟩
    · exact ⟨_, _, _, .inr rfl, rfl⟩
    · exact ih h

/-- A command that has a next state is followed by the commands after it. -/
theorem commandStates_cons_of_next {w : Word32} {s t : State} (ws : List Word32) (h : runWord w s = .next t) :
    commandStates (w :: ws) s = t :: commandStates ws t := by
  simp only [commandStates, h]

/-- From an idle block every command has its wait. -/
theorem commandStates_length (ws : List Word32) {s : State} (hp : s.phase = .idle) :
    (commandStates ws s).length = ws.length := by
  induction ws generalizing s with
  | nil => rfl
  | cons w ws ih =>
    obtain ⟨t, ht, hpt⟩ := everyCommandEndsIdle s w hp
    rw [commandStates_cons_of_next ws ht, List.length_cons, List.length_cons, ih hpt]

/-! ### A whole command keeps the invariant -/

/-- The phase steps of the command in `CMD` keep the invariant. -/
theorem finishPhases_keeps_inv {k : Nat} {i : Instr} {s t : State} (hinv : s.Inv) (hd : decode s.cmd = .ok i)
    (h : finishPhases k i s = .next t) : t.Inv := by
  induction k generalizing s with
  | zero =>
    cases h
    exact hinv
  | succ k ih =>
    by_cases hp : s.phase = .idle
    · rw [finishPhases_idle _ i s hp] at h
      cases h
      exact hinv
    · obtain ⟨u, hu, hrest⟩ := finishPhases_next_step hp h
      obtain ⟨hcmd, -, -⟩ := exec_keeps_cmd_agenda_rst hu
      exact ih ((exec_effect hu).keeps_inv hinv hd fun hidle => absurd hidle hp) (hcmd ▸ hd) hrest

/-- A command carried out whole keeps the invariant. -/
theorem runWord_keeps_inv {w : Word32} {s t : State} (hinv : s.Inv) (hp : s.phase = .idle)
    (h : runWord w s = .next t) : t.Inv := by
  rcases runWord_next_cases h with ⟨i, u, hd, he, hu⟩ | ⟨⟨e, hd⟩, rfl⟩
  · obtain ⟨hcmd, -, -⟩ := exec_keeps_cmd_agenda_rst he
    exact finishPhases_keeps_inv (issue_keeps_inv hinv hp ((issue_of_decode hd).trans he)) (hcmd ▸ hd) hu
  · exact issue_keeps_inv hinv hp (issue_of_illegal hd)

/-! ### The run of the benchmark -/

/-- A block that takes a transaction of the word in `WORD` without an error. -/
def State.TakesWord (s : State) : Prop :=
  s.Inv ∧ s.phase = .idle ∧ s.lifecycle = .ready ∧ s.word < 2 ^ (8 * s.bc)

/-- A transaction of a word that fits ends idle and without an error, and keeps the lifecycle, the word and its
length. -/
theorem runWord_transaction_frame {w : Word32} {s : State} (hw : TransactionWord w) (hs : s.TakesWord) :
    ∃ t, runWord w s = .next t ∧ t.err = .none ∧ t.phase = s.phase ∧ t.lifecycle = s.lifecycle ∧ t.word = s.word ∧
      t.wlen = s.wlen := by
  obtain ⟨hinv, hp, hl, hfits⟩ := hs
  obtain ⟨i, c, v, rfl | rfl, rfl⟩ := hw
  · obtain ⟨t, tx, inb, hrun, -, -, -, -, -, -, -, -, ht⟩ := (writeAsOneStep c v s hinv hp hl).2 hfits
    exact ⟨t, hrun, congrArg (·.err) ht, congrArg (·.phase) ht, congrArg (·.lifecycle) ht, congrArg (·.word) ht,
      congrArg (·.wlen) ht⟩
  · obtain ⟨t, tx, inb, hrun, -, -, -, -, -, -, -, -, -, -, -, ht⟩ := (readAsOneStep c v s hinv hp hl).2 hfits
    exact ⟨t, hrun, congrArg (·.err) ht, congrArg (·.phase) ht, congrArg (·.lifecycle) ht, congrArg (·.word) ht,
      congrArg (·.wlen) ht⟩

/-- A transaction of a word that fits leaves a block that takes the next one. -/
theorem runWord_transaction_takesWord {w : Word32} {s : State} (hw : TransactionWord w) (hs : s.TakesWord) :
    ∃ t, runWord w s = .next t ∧ t.err = .none ∧ t.TakesWord := by
  obtain ⟨t, hrun, herr, hphase, hlife, hword, hwlen⟩ := runWord_transaction_frame hw hs
  obtain ⟨hinv, hp, hl, hfits⟩ := hs
  refine ⟨t, hrun, herr, runWord_keeps_inv hinv hp hrun, hphase.trans hp, hlife.trans hl, ?_⟩
  rwa [hword, State.bc, hwlen]

/-- Transactions of a word that fits all end without an error. -/
theorem commandStates_no_error {ws : List Word32} {s : State} (hws : ∀ w ∈ ws, TransactionWord w)
    (hs : s.TakesWord) : ∀ t ∈ commandStates ws s, t.err = .none := by
  induction ws generalizing s with
  | nil => simp [commandStates]
  | cons w ws ih =>
    obtain ⟨hw, hws⟩ := List.forall_mem_cons.mp hws
    obtain ⟨t, hrun, herr, ht⟩ := runWord_transaction_takesWord hw hs
    rw [commandStates_cons_of_next ws hrun]
    exact List.forall_mem_cons.mpr ⟨herr, ih hws ht⟩

/-- The report of a benchmark whose first command ends with an error names that error. -/
theorem benchmarkReport_first_error {n : Nat} {crc verbose : Bool} {s t : State} {e : ToolError} (hn : 0 < n)
    (hrun : runWord (encode (.write crc verbose)) s = .next t) (he : toolErrorOf t.err = some e) :
    (benchmarkReport (commandStates (benchmarkCommands n crc verbose) s)).error = some e := by
  obtain ⟨n, rfl⟩ := Nat.exists_eq_add_one.mpr hn
  rw [benchmarkCommands_succ, commandStates_cons_of_next _ hrun, benchmarkReport, List.findSome?_cons, he]

/-- A report that names an error does not exit with 0. -/
theorem benchmarkReport_fails {states : List State} {e : ToolError} (he : (benchmarkReport states).error = some e) :
    (benchmarkReport states).exitCode ≠ 0 := by
  have hcode : (benchmarkReport states).exitCode = exitCode (benchmarkReport states).error := rfl
  rw [hcode, he, Ne, exitCode_eq_zero_iff]
  simp

/-- `WORD` takes any word that it can hold. -/
theorem inv_with_word {s : State} {w : Nat} (hinv : s.Inv) (hw : w < 2 ^ (8 * s.sizes.nfMax)) :
    ({ s with word := w } : State).Inv := by
  obtain ⟨⟨hz, hpoly, hinit, hcreg, hrx, hcalc, hpay, -, hrest⟩, hinv⟩ := hinv
  exact ⟨⟨hz, hpoly, hinit, hcreg, hrx, hcalc, hpay, hw, hrest⟩, hinv⟩

/-- The operand of a command line is a word that `WORD` can hold (41_word_codec.md R141). -/
theorem toolWord_lt {z : Sizes} {raw : List Char} {w : Nat} (h : toolWord z raw = .ok w) : w < 2 ^ (8 * z.nfMax) := by
  unfold toolWord at h
  split at h
  · cases h
  · split at h
    · cases h
    · cases h
      omega

/-- A benchmark of a good operand reports its commands on the block with the word in `WORD`. -/
theorem benchmarkOutcome_of_ok {raw : List Char} {s : State} {w : Nat} (n : Nat) (crc verbose : Bool)
    (h : toolWord s.sizes raw = .ok w) :
    benchmarkOutcome n raw crc verbose s
      = benchmarkReport (commandStates (benchmarkCommands n crc verbose) { s with word := w }) := by
  simp only [benchmarkOutcome, h]

/-- A benchmark of a bad operand reports it. -/
theorem benchmarkOutcome_of_error {raw : List Char} {s : State} {e : ToolError} (n : Nat) (crc verbose : Bool)
    (h : toolWord s.sizes raw = .error e) : benchmarkOutcome n raw crc verbose s = failedReport e := by
  simp only [benchmarkOutcome, h]

/-- Settles O60: the reports by `ERR`; the benchmark by its first command, or all of them when the word fits. -/
theorem hostPrintsFull : Obligations.HostPrintsFull := by
  refine ⟨fun s => ⟨fun herr => ⟨fun hfull => ?printed, rfl⟩, fun herr => if_neg herr, ?exitCodes⟩,
    fun n raw crc verbose s e h => ⟨?refused, benchmarkOutcome_of_error n crc verbose h⟩, benchmarkReport_exitCode,
    fun n w raw crc verbose s hinv hp h => ?benchmark⟩
  case printed =>
    rw [← Nat.mod_eq_of_lt hfull, ← readFourLimbs_full]
    exact if_pos herr
  case exitCodes =>
    simp only [List.forall_mem_cons]
    exact ⟨reportAfter_exitCode _ s, reportAfter_exitCode _ s, reportAfter_exitCode _ s, reportAfter_exitCode _ s,
      by simp⟩
  case refused => simp [failedReport, exitCode_eq_zero_iff]
  case benchmark =>
    rw [benchmarkOutcome_of_ok n crc verbose h]
    have hinv' := inv_with_word hinv (toolWord_lt h)
    refine ⟨(commandStates_length _ (s := { s with word := w }) hp).trans (benchmarkCommands_length ..),
      fun hl hw => ?fits, fun hl hw hn => ?overflow, fun hl hn => ?notReady⟩
    case fits =>
      exact (benchmarkReport_exitCode _).mpr
        (commandStates_no_error (fun _ => transactionWord_of_mem_benchmarkCommands) ⟨hinv', hp, hl, hw⟩)
    case overflow =>
      have hfirst := runWord_transaction_overflow (i := .write crc verbose) (s := { s with word := w }) (.inl rfl) hp
        hl hw
      have herror := benchmarkReport_first_error hn hfirst rfl
      exact ⟨herror, benchmarkReport_fails herror⟩
    case notReady =>
      have hfirst := runWord_of_not_allowed (s := { s with word := w }) hp (decodeOfEncode (.write crc verbose))
        (by simpa [allowedIn] using hl)
      exact benchmarkReport_fails (benchmarkReport_first_error hn hfirst rfl)

end Sys2Proof.Machine
end

section
/-! PROOFS. A word that does not fit ends every command with an ENCODE phase (60_exceptions.md R202), and a block that
meets the invariant stops at no turn but an undefined access (20_memory.md R66; 60_exceptions.md R200). -/

namespace Sys2Proof.Machine

/-! ### The word that does not fit -/

/-- A word that does not fit ends every command with an ENCODE phase in that phase (60_exceptions.md R202). -/
theorem exec_overflow {i : Instr} {s : State} (hi : runsThrough i .encode = true) (hp : s.phase = .encode)
    (hw : 2 ^ (8 * s.bc) ≤ s.word) : exec i s = .next (raise .overflowError s) := by
  rcases (runsThrough_encode_iff i).mp hi with hgen | henc | ⟨c, v, hwrite⟩ | ⟨c, v, hread⟩
  · exact exec_encode_genCrc_overflow (.inl hgen) hp hw
  · exact exec_encode_genCrc_overflow (.inr henc) hp hw
  · exact exec_transaction_overflow (.inl hwrite) hp hw
  · exact exec_transaction_overflow (.inr hread) hp hw

/-- Settles O23: OverflowError is raised, and it leaves the lifecycle alone. -/
theorem overflowStopsTheCommand : Obligations.OverflowStopsTheCommand := by
  intro i s hi hp hw
  rw [exec_overflow hi hp hw]
  simp [raise]

/-! ### The turns that have a next state -/

/-- Under the invariant a busy block has a legal command in `CMD`, in a phase of its own (10_state.md R31, R32). -/
theorem command_of_busy {s : State} (h : s.Inv) (hp : s.phase ≠ .idle) :
    ∃ i, decode s.cmd = .ok i ∧ runsThrough i s.phase = true := by
  obtain ⟨-, -, hflow⟩ := (inv_iff s).mp h
  cases hd : decode s.cmd with
  | error e => simp [State.flowOk, hp, hd] at hflow
  | ok i =>
    obtain ⟨-, hi, -⟩ := (flowOk_running_iff hp hd).mp hflow
    exact ⟨i, rfl, hi⟩

/-- Under the invariant the sequencer always has a next state. -/
theorem sequencerStep_total {s : State} (h : s.Inv) : ∃ t, sequencerStep s = .next t := by
  by_cases hp : s.phase = .idle
  · exact ⟨s, by simp [sequencerStep, State.busy, hp]⟩
  · obtain ⟨i, hd, hi⟩ := command_of_busy h hp
    rw [sequencerStep_of_decode hp hd]
    exact exec_total hi

/-- In an idle block every command word is accepted or raises IllegalCommand (30_encoding.md R81). -/
theorem issue_total {s : State} (w : Word32) (hp : s.phase = .idle) : ∃ t, issue w s = .next t := by
  cases hd : decode w with
  | error e => exact ⟨_, issue_of_illegal hd⟩
  | ok i =>
    rw [issue_of_decode hd]
    exact exec_total_idle i (accept w s) hp

/-- A defined write has a next state: dropped while busy, else a command or a register write (20_memory.md R64). -/
theorem memWrite_total {addr bytes : Nat} (s : State) (v : Word32) (hd : accessDefined addr bytes = true) :
    ∃ t, memWrite addr bytes v s = .next t := by
  by_cases hp : s.phase = .idle
  · by_cases haddr : addr = 0x00
    · subst haddr
      have hissue : memWrite 0x00 bytes v s = issue v s := by simp [memWrite, State.busy, hd, hp]
      rw [hissue]
      exact issue_total v hp
    · exact ⟨_, memWrite_register v hd hp haddr⟩
  · exact ⟨s, memWrite_busy v hd hp⟩

/-- While the reset input is asserted every turn has a next state (70_reset_and_hazards.md R230). -/
theorem step_total_in_reset {s : State} (hr : s.rst = true) : ∃ t, step s = .next t := by
  cases ha : s.agenda with
  | nil => exact ⟨s, by simp [step, takeTurn, ha, hr]⟩
  | cons u rest =>
    by_cases hu : u = .rst false
    · subst hu
      obtain ⟨t, ht, -⟩ := step_reset_edge ha hr
      exact ⟨t, ht⟩
    · exact ⟨_, step_in_reset hr ha hu⟩

/-- While the reset input is released a defined turn has a next state, under the invariant. -/
theorem step_total_running {s : State} {u : Turn} {rest : List Turn} (h : s.Inv) (hr : s.rst = false)
    (ha : s.agenda = u :: rest) (hu : u.defined = true) : ∃ t, step s = .next t := by
  cases u with
  | hostRead addr bytes =>
    obtain ⟨value, draws, hread, -⟩ := memRead_defined { s with agenda := rest } hu
    exact ⟨_, (step_hostRead hr ha).trans hread⟩
  | hostWrite addr bytes v =>
    rw [step_hostWrite hr ha]
    exact memWrite_total _ v hu
  | hostWait =>
    by_cases hp : s.phase = .idle
    · exact ⟨_, step_hostWait_idle hr ha hp⟩
    · rw [step_hostWait_busy hr ha hp]
      exact sequencerStep_total h
  | sequencer =>
    rw [step_sequencer hr ha]
    exact sequencerStep_total (s := { s with agenda := rest }) h
  | rst level =>
    cases level with
    | false => exact ⟨{ s with agenda := rest }, by simp [step, takeTurn, turnRunning, ha, hr]⟩
    | true =>
      obtain ⟨t, ht, -⟩ := step_reset_edge ha hr
      exact ⟨t, ht⟩

/-- Settles O41: by the level of the reset input and the next turn; with nothing on the agenda the sequencer moves. -/
theorem definedTurnsNeverStop : Obligations.DefinedTurnsNeverStop := by
  intro s h hdef
  cases hr : s.rst with
  | true => exact step_total_in_reset hr
  | false =>
    cases ha : s.agenda with
    | nil =>
      rw [step_empty_agenda hr ha]
      exact sequencerStep_total h
    | cons u rest => exact step_total_running h hr ha (hdef u rest ha)

end Sys2Proof.Machine
end

section
/-! PROOFS. The host's accesses while a command runs (70_reset_and_hazards.md R242, R243, R245): beside the
agenda, each changes at most the value last read and the count of free values drawn, hence so does any list of them. -/

namespace Sys2Proof.Machine

/-- Settles O53: the turn is the write, and a defined write in a busy block is dropped. -/
theorem busyWritesAreDropped : Obligations.BusyWritesAreDropped := by
  intro s addr v rest hr hp ha halign hlt
  rw [step_hostWrite hr ha]
  exact memWrite_busy (s := { s with agenda := rest }) v (accessDefined_iff.mpr ⟨rfl, halign, hlt⟩) hp

/-- A defined access of the host, a read or a write (20_memory.md R66). -/
def Turn.IsDefinedAccess (u : Turn) : Prop :=
  (∃ addr, u = .hostRead addr 4 ∧ addr % 4 = 0 ∧ addr < 0x100) ∨
    ∃ addr v, u = .hostWrite addr 4 v ∧ addr % 4 = 0 ∧ addr < 0x100

/-- A defined access while a command runs: a read answers the host and may draw a free word, a write does nothing. -/
theorem step_access_busy {s : State} {u : Turn} {rest : List Turn} (hr : s.rst = false) (hp : s.phase ≠ .idle)
    (hu : u.IsDefinedAccess) (ha : s.agenda = u :: rest) :
    ∃ value draws, step s = .next { s with agenda := rest, readData := value, draws := draws } := by
  rcases hu with ⟨addr, rfl, halign, hlt⟩ | ⟨addr, v, rfl, halign, hlt⟩
  · obtain ⟨value, draws, hread, -⟩ :=
      memRead_defined { s with agenda := rest } (accessDefined_iff.mpr ⟨rfl, halign, hlt⟩)
    exact ⟨value, draws, (step_hostRead hr ha).trans hread⟩
  · exact ⟨s.readData, s.draws, busyWritesAreDropped s addr v rest hr hp ha halign hlt⟩

/-- Any list of defined accesses while a command runs: they all answer, and the block stays busy where it was. -/
theorem run_accesses_busy {accesses rest : List Turn} {s : State} (hr : s.rst = false) (hp : s.phase ≠ .idle)
    (hdef : ∀ u ∈ accesses, u.IsDefinedAccess) (ha : s.agenda = accesses ++ rest) :
    ∃ value draws, Host.Core.run core accesses.length s
      = .next { s with agenda := rest, readData := value, draws := draws } := by
  induction accesses generalizing s with
  | nil =>
    obtain rfl : s.agenda = rest := ha
    exact ⟨s.readData, s.draws, rfl⟩
  | cons u accesses ih =>
    obtain ⟨hu, htail⟩ := List.forall_mem_cons.mp hdef
    obtain ⟨value, draws, hstep⟩ := step_access_busy hr hp hu ha
    obtain ⟨value', draws', hrun⟩ :=
      ih (s := { s with agenda := accesses ++ rest, readData := value, draws := draws }) hr hp htail rfl
    exact ⟨value', draws', (run_succ_of_step hstep).trans hrun⟩

/-- Settles O55: only the agenda, the value last read and the free values drawn are left to differ. -/
theorem hostCannotDisturbCommand : Obligations.HostCannotDisturbCommand := by
  intro accesses rest s hr hp hdef ha
  obtain ⟨value, draws, hrun⟩ := run_accesses_busy hr hp hdef ha
  exact ⟨_, hrun, rfl, rfl, rfl, rfl, rfl⟩

end Sys2Proof.Machine
end
